-- ==== Sys2Proof/Word.lean ====
section
/-! DEFINITION. The word types of FIBCORE (spec 00_scope.md R6, R7, R8): bit 0 is the least significant bit. -/

namespace Sys2Proof

/-- A U256 value (R8): 256 bits, the value of one W register. -/
abbrev U256 := BitVec 256

/-- A limb (R6, LIMB_W): 128 bits. -/
abbrev Limb := BitVec 128

/-- A multiplier half-limb (R6, HALF_W): 64 bits. -/
abbrev HalfLimb := BitVec 64

/-- A host word and a command word (R6, HOST_W and CMD_W): 32 bits. -/
abbrev Word := BitVec 32

/-- One byte of the host window (R56). -/
abbrev Byte := BitVec 8

/-- A W register number (R84): 4 bits, all 16 values valid. -/
abbrev Reg := BitVec 4

/-- An opcode (R81, field OPC). -/
abbrev Opcode := BitVec 8

end Sys2Proof
end

