-- ==== Sys2Proof/Syntax.lean ====
section
/-! DEFINITION. The commands of FIBCORE (spec 30_encoding.md R85): one constructor per row of the opcode map, and
the names decoding and the assembler use. -/

namespace Sys2Proof

/-- A FIBCORE command. Registers are W register numbers (R84); an immediate is the signed integer the 20-bit field
stands for (R83). A command is meaningful when `Instr.WellFormed` holds. -/
inductive Instr where
  /-- SETS, 40_assign.md R100. -/
  | sets (rd rs1 : Reg)
  /-- SETSI, 40_assign.md R101. -/
  | setsi (rd : Reg) (imm : Int)
  /-- COPY, 40_assign.md R102. -/
  | copy (rd rs1 : Reg)
  /-- ADD, 41_addsub.md R120. -/
  | add (rd rs1 rs2 : Reg)
  /-- ADDS, 41_addsub.md R121. -/
  | adds (rd rs1 : Reg)
  /-- SUB, 41_addsub.md R122. -/
  | sub (rd rs1 rs2 : Reg)
  /-- MUL, 42_multiply.md R140. -/
  | mul (rd rs1 rs2 : Reg)
  /-- MULW, 42_multiply.md R141. -/
  | mulw (rd rs1 rs2 : Reg)
  /-- FIBS128, 43_fib128.md R161. -/
  | fibs128 (rd rs1 : Reg)
  /-- FIBD128, 43_fib128.md R166. -/
  | fibd128 (rd rs1 : Reg)
  /-- FIBC128, 43_fib128.md R165. -/
  | fibc128 (rd rs1 : Reg)
  /-- FIBI256, 44_fib256.md R190. -/
  | fibi256 (rd rs1 : Reg)
  /-- FIBC256, 44_fib256.md R193. -/
  | fibc256 (rd rs1 : Reg)
  /-- FIBC256W, 44_fib256.md R194. -/
  | fibc256w (rd rs1 : Reg)
deriving DecidableEq, Repr

/-- The three command formats (R82). -/
inductive Format where
  | r3
  | r2
  | i20
deriving DecidableEq, Repr

/-- Why a command word is rejected (R222). NONE is no rejection; codes 4 to 15 are never produced. -/
inductive RejectCode where
  /-- 1: the OPC value is not listed. -/
  | illegalOpcode
  /-- 2: a must-be-zero bit is 1. -/
  | reservedField
  /-- 3: an engine command's index is negative. -/
  | negIndex
deriving DecidableEq, Repr

/-- What decoding a command word gives (R87): a command, or the rejection's cause. -/
inductive Decoded where
  | command (i : Instr)
  | rejected (c : RejectCode)
deriving DecidableEq, Repr

/-- The format of a command (R85). -/
def Instr.format : Instr → Format
  | .sets _ _ => .r2
  | .setsi _ _ => .i20
  | .copy _ _ => .r2
  | .add _ _ _ => .r3
  | .adds _ _ => .r2
  | .sub _ _ _ => .r3
  | .mul _ _ _ => .r3
  | .mulw _ _ _ => .r3
  | .fibs128 _ _ => .r2
  | .fibd128 _ _ => .r2
  | .fibc128 _ _ => .r2
  | .fibi256 _ _ => .r2
  | .fibc256 _ _ => .r2
  | .fibc256w _ _ => .r2

/-- The destination register of a command (R21: every accepted command writes exactly one W register). -/
def Instr.dest : Instr → Reg
  | .sets rd _ => rd
  | .setsi rd _ => rd
  | .copy rd _ => rd
  | .add rd _ _ => rd
  | .adds rd _ => rd
  | .sub rd _ _ => rd
  | .mul rd _ _ => rd
  | .mulw rd _ _ => rd
  | .fibs128 rd _ => rd
  | .fibd128 rd _ => rd
  | .fibc128 rd _ => rd
  | .fibi256 rd _ => rd
  | .fibc256 rd _ => rd
  | .fibc256w rd _ => rd

/-- The register an engine command takes its index from (R26); none for a primitive (R12). -/
def Instr.indexReg : Instr → Option Reg
  | .sets _ _ => none
  | .setsi _ _ => none
  | .copy _ _ => none
  | .add _ _ _ => none
  | .adds _ _ => none
  | .sub _ _ _ => none
  | .mul _ _ _ => none
  | .mulw _ _ _ => none
  | .fibs128 _ rs1 => some rs1
  | .fibd128 _ rs1 => some rs1
  | .fibc128 _ rs1 => some rs1
  | .fibi256 _ rs1 => some rs1
  | .fibc256 _ rs1 => some rs1
  | .fibc256w _ rs1 => some rs1

end Sys2Proof
end

