-- ==== Sys2Proof/WellFormed.lean ====
section
/-! DEFINITION. Which commands an encoding exists for. Every register number is valid (spec 30_encoding.md R84), so
the one check is the immediate's range (R83, R90). -/

namespace Sys2Proof

/-- An immediate the 20-bit signed field can hold (R83): -524288 to 524287. -/
abbrev immFits (imm : Int) : Prop := -524288 ≤ imm ∧ imm ≤ 524287

/-- A command that some command word encodes (R83, R84, R90). -/
def Instr.wellFormed : Instr → Bool
  | .setsi _ imm => decide (immFits imm)
  | .sets _ _ => true
  | .copy _ _ => true
  | .add _ _ _ => true
  | .adds _ _ => true
  | .sub _ _ _ => true
  | .mul _ _ _ => true
  | .mulw _ _ _ => true
  | .fibs128 _ _ => true
  | .fibd128 _ _ => true
  | .fibc128 _ _ => true
  | .fibi256 _ _ => true
  | .fibc256 _ _ => true
  | .fibc256w _ _ => true

/-- `Instr.wellFormed` as a proposition. -/
abbrev Instr.WellFormed (i : Instr) : Prop := i.wellFormed = true

end Sys2Proof
end

