-- ==== Sys2Proof/Decode.lean ====
section
/-! DEFINITION. Decoding and encoding of command words (spec 30_encoding.md R80 to R88). Decoding is total on all
2^32 words. The NEG_INDEX check of R87 reads the register file, so it stands in the engine commands' meanings
(`Machine.acceptEngine`), after these checks: DEDUCED, safe, log entry 14. -/

namespace Sys2Proof

/-- Field OPC, bits 31:24 (R81). -/
def fieldOpc (w : Word) : Opcode := w.extractLsb' 24 8

/-- Field RD, bits 23:20 (R81). -/
def fieldRd (w : Word) : Reg := w.extractLsb' 20 4

/-- Field RS1, bits 19:16 (R81). -/
def fieldRs1 (w : Word) : Reg := w.extractLsb' 16 4

/-- Field RS2, bits 15:12 (R81). -/
def fieldRs2 (w : Word) : Reg := w.extractLsb' 12 4

/-- Field IMM20, bits 19:0 (R81). -/
def fieldImm (w : Word) : BitVec 20 := w.extractLsb' 0 20

/-- The must-be-zero bits of format R3, bits 11:0 (R82). -/
def zeroR3 (w : Word) : BitVec 12 := w.extractLsb' 0 12

/-- The must-be-zero bits of format R2, bits 15:0 (R82). -/
def zeroR2 (w : Word) : BitVec 16 := w.extractLsb' 0 16

/-- A word of format R3 (R82, R86): RESERVED_FIELD when a must-be-zero bit is 1. -/
def decodeR3 (w : Word) (mk : Reg → Reg → Reg → Instr) : Decoded :=
  if zeroR3 w = 0 then .command (mk (fieldRd w) (fieldRs1 w) (fieldRs2 w)) else .rejected .reservedField

/-- A word of format R2 (R82, R86): RESERVED_FIELD when a must-be-zero bit is 1. -/
def decodeR2 (w : Word) (mk : Reg → Reg → Instr) : Decoded :=
  if zeroR2 w = 0 then .command (mk (fieldRd w) (fieldRs1 w)) else .rejected .reservedField

/-- A word of format I20 (R82, R83): no reserved bits; the immediate is the field read as two's complement. -/
def decodeI20 (w : Word) (mk : Reg → Int → Instr) : Decoded :=
  .command (mk (fieldRd w) (fieldImm w).toInt)

/-- Decoding of a command word (R85, R86, R87), one line per row of the opcode map, less the NEG_INDEX check. -/
def decode (w : Word) : Decoded :=
  match fieldOpc w with
  | 0x01#8 => decodeR2 w .sets
  | 0x02#8 => decodeI20 w .setsi
  | 0x03#8 => decodeR2 w .copy
  | 0x10#8 => decodeR3 w .add
  | 0x11#8 => decodeR2 w .adds
  | 0x12#8 => decodeR3 w .sub
  | 0x20#8 => decodeR3 w .mul
  | 0x21#8 => decodeR3 w .mulw
  | 0x30#8 => decodeR2 w .fibs128
  | 0x31#8 => decodeR2 w .fibd128
  | 0x32#8 => decodeR2 w .fibc128
  | 0x38#8 => decodeR2 w .fibi256
  | 0x39#8 => decodeR2 w .fibc256
  | 0x3A#8 => decodeR2 w .fibc256w
  | _ => .rejected .illegalOpcode

/-- The opcode of a command (R85). -/
def Instr.opcode : Instr → Opcode
  | .sets _ _ => 0x01#8
  | .setsi _ _ => 0x02#8
  | .copy _ _ => 0x03#8
  | .add _ _ _ => 0x10#8
  | .adds _ _ => 0x11#8
  | .sub _ _ _ => 0x12#8
  | .mul _ _ _ => 0x20#8
  | .mulw _ _ _ => 0x21#8
  | .fibs128 _ _ => 0x30#8
  | .fibd128 _ _ => 0x31#8
  | .fibc128 _ _ => 0x32#8
  | .fibi256 _ _ => 0x38#8
  | .fibc256 _ _ => 0x39#8
  | .fibc256w _ _ => 0x3A#8

/-- The opcodes R85 lists. -/
def listedOpcodes : List Opcode :=
  [0x01#8, 0x02#8, 0x03#8, 0x10#8, 0x11#8, 0x12#8, 0x20#8, 0x21#8, 0x30#8, 0x31#8, 0x32#8, 0x38#8, 0x39#8, 0x3A#8]

/-- The format R85 gives a listed opcode. -/
def formatOf (opc : Opcode) : Option Format :=
  if opc ∈ [0x10#8, 0x12#8, 0x20#8, 0x21#8] then some .r3
  else if opc = 0x02#8 then some .i20
  else if opc ∈ listedOpcodes then some .r2
  else none

/-- A word of format R3 (R82). -/
def encodeR3 (opc : Opcode) (rd rs1 rs2 : Reg) : Word := opc ++ rd ++ rs1 ++ rs2 ++ 0#12

/-- A word of format R2 (R82). -/
def encodeR2 (opc : Opcode) (rd rs1 : Reg) : Word := opc ++ rd ++ rs1 ++ 0#16

/-- A word of format I20 (R82, R83). -/
def encodeI20 (opc : Opcode) (rd : Reg) (imm : Int) : Word := opc ++ rd ++ BitVec.ofInt 20 imm

/-- The command word of a command (R81, R82, R85); meaningful when the command is well formed. -/
def encode : Instr → Word
  | .sets rd rs1 => encodeR2 0x01#8 rd rs1
  | .setsi rd imm => encodeI20 0x02#8 rd imm
  | .copy rd rs1 => encodeR2 0x03#8 rd rs1
  | .add rd rs1 rs2 => encodeR3 0x10#8 rd rs1 rs2
  | .adds rd rs1 => encodeR2 0x11#8 rd rs1
  | .sub rd rs1 rs2 => encodeR3 0x12#8 rd rs1 rs2
  | .mul rd rs1 rs2 => encodeR3 0x20#8 rd rs1 rs2
  | .mulw rd rs1 rs2 => encodeR3 0x21#8 rd rs1 rs2
  | .fibs128 rd rs1 => encodeR2 0x30#8 rd rs1
  | .fibd128 rd rs1 => encodeR2 0x31#8 rd rs1
  | .fibc128 rd rs1 => encodeR2 0x32#8 rd rs1
  | .fibi256 rd rs1 => encodeR2 0x38#8 rd rs1
  | .fibc256 rd rs1 => encodeR2 0x39#8 rd rs1
  | .fibc256w rd rs1 => encodeR2 0x3A#8 rd rs1

/-- The 32-bit command word that `nbits` bits given as the number `w` stand for: bits above `nbits` are 0. A command
word has no byte order of its own (R56): it is the 32-bit value written to CMD. -/
def tableWord (nbits w : Nat) : Word := BitVec.ofNat 32 (w % 2 ^ nbits)

/-- The command the decoder reads from an instruction of `nbits` bits whose bits are `w` (bit 0 the least
significant); none where it rejects. -/
def decodeTableWord (nbits w : Nat) : Option Instr :=
  match decode (tableWord nbits w) with
  | .command i => some i
  | .rejected _ => none

end Sys2Proof
end

