-- ==== Sys2Proof/Config.lean ====
section
/-! DEFINITION. What one FIBCORE instance fixes (spec 00_scope.md R6): the constants of the parameter table the
model names, and the one OPEN parameter, which no proof can see. -/

namespace Sys2Proof

/-- FIBCORE_BASE, the bus address of window offset 0 (R6, R50, decision D26: OPEN). It has no value here, so a claim
holds for every base. DESIGN CHOICE, safe: log entry 4. -/
opaque Config.fibcoreBase : Nat

/-- The number of bytes of the host window (R6, R50). -/
def Config.windowSize : Nat := 0x400

/-- The constant the ID register reads (R34): ASCII "FIB1" from the most significant byte down. -/
def Config.idValue : Word := 0x46494231#32

/-- The recommended index ceiling of the 256-bit engines (R6): advisory, checked nowhere (R223). -/
def Config.recommendedCeiling : Nat := 370

end Sys2Proof
end

