-- ==== Sys2Proof/Machine/State.lean ====
section
/-! DEFINITION. The state of FIBCORE (spec 10_state.md), what the outside world can do to it (20_memory.md R61,
70_reset_and_hazards.md R250), the reasons a step can stop, and the state after reset. -/

namespace Sys2Proof.Machine

/-- The engine's phase register PH (R25). -/
inductive Phase where
  /-- No command is running. -/
  | idle
  /-- An engine command is running its iterations. -/
  | loop
  /-- A result is waiting to be written. -/
  | commit
deriving DecidableEq, Repr

/-- The width of a host access (R57): only `word`, 32 bits, reaches a register. -/
inductive AccessSize where
  | byte
  | half
  | word
  | dword
deriving DecidableEq, Repr

/-- What a host write carries, at its own width. -/
inductive WriteData where
  | byte (v : BitVec 8)
  | half (v : BitVec 16)
  | word (v : BitVec 32)
  | dword (v : BitVec 64)
deriving DecidableEq, Repr

/-- A host access's direction and data (R61). -/
inductive HostOp where
  | read (size : AccessSize)
  | write (data : WriteData)
deriving DecidableEq, Repr

/-- Where a host access goes: a window offset (HostRead and HostWrite of 00_scope.md R9), or a bus address, which
reaches the window by FIBCORE_BASE (R50). -/
inductive HostAddr where
  | offset (off : Nat)
  | bus (addr : Nat)
deriving DecidableEq, Repr

/-- One host access (R61, R70): one atomic step of the host agent. -/
structure HostAccess where
  addr : HostAddr
  op : HostOp
deriving DecidableEq, Repr

/-- One move of an execution (R5, R70, R71): a host access, a turn given to the engine, or a reset (R250). -/
inductive Move where
  | host (a : HostAccess)
  | engine
  | reset
deriving DecidableEq, Repr

/-- What the last host access was answered on the bus. The MODEL's own record: DESIGN CHOICE, safe, log entry 2. -/
inductive Response where
  /-- No access since reset. -/
  | none
  /-- A write was taken by the bus (whether or not FIBCORE discarded or ignored it). -/
  | written
  /-- A 32-bit read returned this value. -/
  | data (v : Word)
  /-- The access was not a 32-bit access at a multiple of 4 (R57). -/
  | busError
deriving DecidableEq, Repr

/-- Everything the spec gives FIBCORE, and two fields of the model's own (`schedule`, `resp`). -/
structure State where
  /-- W0 to W15 (R20). -/
  w : Vector U256 16
  /-- PH (R25). -/
  ph : Phase
  /-- OP, the latched opcode (R26). -/
  op : Opcode
  /-- RD, the latched destination number (R26). -/
  rd : Reg
  /-- SA, the latched W[rs1] (R26). -/
  sa : U256
  /-- SB, the latched W[rs2] (R26). -/
  sb : U256
  /-- SD, the latched W[rd] (R26). -/
  sd : U256
  /-- K, the latched index (R26), at the index width of R6: DEDUCED, log entry 13. -/
  k : BitVec 64
  /-- RES, the result (R27). -/
  res : U256
  /-- A, the pair's first value (R28). -/
  a : U256
  /-- B, the pair's second value (R28). -/
  b : U256
  /-- N, the working index (R29). -/
  n : BitVec 64
  /-- J, the doubling engines' bit position (R29). -/
  j : BitVec 7
  /-- I, the iterative engines' loop counter (R29). -/
  i : BitVec 64
  /-- CTRL.IE (R35). -/
  ie : Bool
  /-- STATUS.DONE (R36). -/
  done : Bool
  /-- STATUS.ERR (R36). -/
  err : Bool
  /-- STATUS.BWE (R36). -/
  bwe : Bool
  /-- ERRCODE.CODE (R37). -/
  code : BitVec 4
  /-- The moves still to come, first first. The MODEL's own: DESIGN CHOICE, safe, log entry 1. -/
  schedule : List Move
  /-- The last host access's answer. The MODEL's own: DESIGN CHOICE, safe, log entry 2. -/
  resp : Response
deriving DecidableEq, Repr

/-- Why the machine stops with a fault. The spec gives FIBCORE none of its own (R220). -/
inductive Fault where
  /-- A host access whose address does not reach the 1024-byte window (R50): raised by `hostAccess`. Safe: the access
  is some other device's. Log entry 5. -/
  | outsideWindow
  /-- A LOOP step while OP is no engine command's opcode, for which R32 gives no iteration: raised by `loopStep`. Safe:
  no run reaches it. Log entry 7. -/
  | loopWithoutEngine
deriving DecidableEq, Repr

/-- Why an instruction has no meaning. No meaning answers with it. -/
inductive Refusal where
  /-- An instruction of the opcode table that the model does not give a meaning yet. Safe. No arm answers it. -/
  | notModelled (mnemonic : String)
deriving DecidableEq, Repr

/-- The machine right after reset (R250): every W register 0 (R22), PH IDLE (R25), CTRL.IE, STATUS and ERRCODE 0 (R35
to R37). The internal latches OP to I are unspecified (R30); their zeros are a DESIGN CHOICE, unsafe, log entry 3. No
move is scheduled and no access has been answered: log entries 1 and 2. -/
def State.reset : State where
  w := Vector.replicate 16 0
  ph := .idle
  op := 0
  rd := 0
  sa := 0
  sb := 0
  sd := 0
  k := 0
  res := 0
  a := 0
  b := 0
  n := 0
  j := 0
  i := 0
  ie := false
  done := false
  err := false
  bwe := false
  code := 0
  schedule := []
  resp := .none

end Sys2Proof.Machine
end

