-- ==== Sys2Proof/Machine/Operands.lean ====
section
/-! DEFINITION. The operand forms of FIBCORE: limbs and words of a U256, W registers, the index operand, the SETSI
immediate, and the registers of the host window (spec 00_scope.md R8, 10_state.md, 20_memory.md, 30_encoding.md). -/

namespace Sys2Proof.Machine

/-- The low limb `v[127:0]` (R8). -/
def lo (v : U256) : Limb := v.extractLsb' 0 128

/-- The high limb `v[255:128]` (R8). -/
def hi (v : U256) : Limb := v.extractLsb' 128 128

/-- `u256(h, l)` (R8). -/
def u256 (h l : Limb) : U256 := h ++ l

/-- The low half-limb `x[63:0]` (R140). -/
def loHalf (x : Limb) : HalfLimb := x.extractLsb' 0 64

/-- The high half-limb `x[127:64]` (R140). -/
def hiHalf (x : Limb) : HalfLimb := x.extractLsb' 64 64

/-- `W[r]` (R9, R20). -/
def State.readW (s : State) (r : Reg) : U256 := s.w[r.toNat]'r.isLt

/-- `W[r] <- v` (R9, R20). -/
def State.writeW (s : State) (r : Reg) (v : U256) : State := { s with w := s.w.set r.toNat v r.isLt }

/-- The index operand of an engine command, the bits `W[r][63:0]` (R26). -/
def State.index (s : State) (r : Reg) : BitVec 64 := (s.readW r).extractLsb' 0 64

/-- Whether an index operand is negative as a signed 64-bit value (R26, R222). -/
def indexNegative (k : BitVec 64) : Bool := k.msb

/-- The 20-bit field of a SETSI immediate (R83). -/
def immField (imm : Int) : BitVec 20 := BitVec.ofInt 20 imm

/-- `sext_128(w[19:0])` (R83). -/
def immLimb (imm : Int) : Limb := (immField imm).signExtend 128

/-- Word `j` of a W register, `v[32*j+31 : 32*j]` (R52). -/
def wordOf (v : U256) (j : Fin 8) : Word := v.extractLsb' (32 * j.val) 32

/-- The W register `v` with word `j` replaced and the other 224 bits unchanged (R54). -/
def setWordOf (v : U256) (j : Fin 8) (x : Word) : U256 :=
  (v &&& ~~~(0xFFFFFFFF#256 <<< (32 * j.val))) ||| (x.setWidth 256 <<< (32 * j.val))

/-- STATUS.BUSY, always PH ≠ IDLE (R25, R36). -/
def State.busy (s : State) : Bool := s.ph != .idle

/-- The interrupt output (R39): `irq = CTRL.IE & (STATUS.DONE | STATUS.ERR)`. Not stored. -/
def State.irq (s : State) : Bool := s.ie && (s.done || s.err)

/-- CTRL as the host reads it (R35). -/
def State.ctrlWord (s : State) : Word := (BitVec.ofBool s.ie).setWidth 32

/-- STATUS as the host reads it (R36): BUSY, DONE, ERR and BWE in bits 0 to 3, the rest 0. -/
def State.statusWord (s : State) : Word :=
  (BitVec.ofBool s.bwe ++ BitVec.ofBool s.err ++ BitVec.ofBool s.done ++ BitVec.ofBool s.busy).setWidth 32

/-- ERRCODE as the host reads it (R37): CODE in bits 3:0, the rest 0. -/
def State.errcodeWord (s : State) : Word := s.code.setWidth 32

/-- The ERRCODE.CODE value of a rejection cause (R222). -/
def rejectBits : RejectCode → BitVec 4
  | .illegalOpcode => 1
  | .reservedField => 2
  | .negIndex => 3

/-- The registers of the host window (R51). -/
inductive WindowReg where
  | id
  | ctrl
  | status
  | errcode
  | cmd
  | reserved
  | wWord (r : Reg) (j : Fin 8)
deriving DecidableEq, Repr

/-- The register at a window offset below 0x400 that is a multiple of 4 (R51, R52). -/
def windowReg (off : Nat) : WindowReg :=
  if off = 0x000 then .id
  else if off = 0x004 then .ctrl
  else if off = 0x008 then .status
  else if off = 0x00C then .errcode
  else if off = 0x010 then .cmd
  else if off < 0x200 then .reserved
  else .wWord (BitVec.ofNat 4 ((off - 0x200) / 32)) (Fin.ofNat 8 ((off - 0x200) / 4))

/-- The offset of word `j` of W register `r` (R52): `0x200 + 32*i + 4*j`. -/
def wOffset (r : Reg) (j : Fin 8) : Nat := 0x200 + 32 * r.toNat + 4 * j.val

/-- The window offset of the CMD port (R38). -/
def cmdOffset : Nat := 0x010

/-- The window offset of STATUS (R36). -/
def statusOffset : Nat := 0x008

/-- What a window register reads (R34 to R38, R53, R55). -/
def State.readReg (s : State) : WindowReg → Word
  | .id => Config.idValue
  | .ctrl => s.ctrlWord
  | .status => s.statusWord
  | .errcode => s.errcodeWord
  | .cmd => 0
  | .reserved => 0
  | .wWord r j => wordOf (s.readW r) j

/-- HostRead (R9): the value of a 32-bit read at an aligned window offset. A read has no side effect (R59). -/
def State.hostRead (s : State) (off : Nat) : Word := s.readReg (windowReg off)

/-- The byte at a window offset (R56, little-endian): byte `off % 4` of the 32-bit register it lies in. -/
def State.windowByte (s : State) (off : Nat) : Byte := (s.hostRead (off - off % 4)).extractLsb' (8 * (off % 4)) 8

/-- The window offset an access reaches (R50); none when it does not reach the window. -/
def HostAddr.windowOffset? : HostAddr → Option Nat
  | .offset off => if off < Config.windowSize then some off else none
  | .bus addr =>
    if Config.fibcoreBase ≤ addr ∧ addr - Config.fibcoreBase < Config.windowSize then some (addr - Config.fibcoreBase)
    else none

/-- The width of what a write carries. -/
def WriteData.size : WriteData → AccessSize
  | .byte _ => .byte
  | .half _ => .half
  | .word _ => .word
  | .dword _ => .dword

/-- The width of a host access. -/
def HostOp.size : HostOp → AccessSize
  | .read size => size
  | .write data => data.size

/-- A 32-bit host write at a window offset, HostWrite (R9). -/
def hostWrite32 (off : Nat) (v : Word) : Move := .host ⟨.offset off, .write (.word v)⟩

/-- A 32-bit host read at a window offset, HostRead (R9). -/
def hostRead32 (off : Nat) : Move := .host ⟨.offset off, .read .word⟩

end Sys2Proof.Machine
end

