-- ==== Sys2Proof/Machine/Flags.lean ====
section
/-! DEFINITION. FIBCORE has no arithmetic flags (spec 10_state.md R23): no carry, borrow, overflow, zero or sign bit is
recorded. What carries exist are internal to one command; they are computed here. -/

namespace Sys2Proof.Machine

/-- A carry or borrow bit as a limb, 1 or 0. -/
def bitLimb (c : Bool) : Limb := if c then 1 else 0

/-- R120: `carry <- (l < y) ? 1 : 0`, where `l` is the wrapped sum of a limb and the limb `y`. -/
def carryOut (l y : Limb) : Limb := bitLimb (l.ult y)

/-- R122: `borrow <- (x < y) ? 1 : 0`. -/
def borrowOut (x y : Limb) : Limb := bitLimb (x.ult y)

/-- R140: bit 128 of a 129-bit partial sum. -/
def carry129 (s : BitVec 129) : Limb := bitLimb s.msb

end Sys2Proof.Machine
end

