-- ==== Sys2Proof/Machine/Arith.lean ====
section
/-! DEFINITION. The datapath of FIBCORE, limb by limb as the spec's pseudocode writes it: the adder, the subtractor, the
multiplier (41_addsub.md, 42_multiply.md), the sign extension (40_assign.md) and the doubling steps (43_fib128.md,
44_fib256.md). The commands and the engines use these same functions. -/

namespace Sys2Proof.Machine

/-- R100, R101: `v` in the low limb, the high limb all ones if `v` is negative and all zeros otherwise. -/
def setFromSigned (l : Limb) : U256 := u256 (if l.msb then BitVec.allOnes 128 else 0) l

/-- R120: the 256-bit add with the ripple carry from the low limb into the high limb. -/
def addU256 (x y : U256) : U256 :=
  let l := lo x + lo y
  u256 (hi x + hi y + carryOut l (lo y)) l

/-- R121: the add of one limb into a U256. -/
def addScalar (d : U256) (y : Limb) : U256 :=
  let l := lo d + y
  u256 (hi d + carryOut l y) l

/-- R122: the subtract in the source's form, `x + (~y + 1)`. -/
def subU256 (x y : U256) : U256 := addU256 x (addScalar (u256 (~~~(hi y)) (~~~(lo y))) 1)

/-- R122: the borrow-chain form of the subtract, which an implementation may build instead. -/
def subBorrowChain (x y : U256) : U256 :=
  u256 (hi x - hi y - borrowOut (lo x) (lo y)) (lo x - lo y)

/-- An exact 64 x 64 -> 128 partial product (R140). -/
def mulHalf (p q : HalfLimb) : Limb := p.setWidth 128 * q.setWidth 128

/-- A partial product's low half, 64 bits up, at 129 bits (R140: `zext_128(p[63:0]) << 64` in a sum of 129 bits). -/
def shifted129 (p : Limb) : BitVec 129 := (loHalf p).setWidth 129 <<< 64

/-- R140: the schoolbook 128 x 128 -> 256 multiply from four partial products, every carry folded into the high limb. -/
def mul128 (x y : Limb) : U256 :=
  let ab := mulHalf (loHalf x) (loHalf y)
  let bc := mulHalf (loHalf y) (hiHalf x)
  let ad := mulHalf (loHalf x) (hiHalf y)
  let cd := mulHalf (hiHalf x) (hiHalf y)
  let s1 := ab.setWidth 129 + shifted129 bc
  let t := s1.setWidth 128
  let s2 := BitVec.setWidth 129 t + shifted129 ad
  let low := s2.setWidth 128
  let high := cd + (hiHalf bc).setWidth 128 + (hiHalf ad).setWidth 128 + carry129 s1 + carry129 s2
  u256 high low

/-- R141: the cascaded 256 x 256 -> 256 multiply mod 2^256. -/
def mulWide (x y : U256) : U256 :=
  let p0 := mul128 (lo x) (lo y)
  let p1 := mul128 (lo x) (hi y)
  let p2 := mul128 (hi x) (lo y)
  u256 (hi p0 + lo p1 + lo p2) (lo p0)

/-- R162: the 128-bit doubling step, from `(F(m), F(m+1))` to the pair for `2m + bit`; everything wraps mod 2^128. -/
def dstep128 (a b : Limb) (bit : Bool) : Limb × Limb :=
  let t := b + b - a
  let c := a * t
  let d := a * a + b * b
  if bit then (d, c + d) else (c, d)

/-- R191, `dstep256_lo`: the 256-bit doubling step of FIBC256, whose products take only the low limbs. -/
def dstep256Lo (a b : U256) (bit : Bool) : U256 × U256 :=
  let t := subU256 (addU256 b b) a
  let c := mul128 (lo a) (lo t)
  let d := addU256 (mul128 (lo a) (lo a)) (mul128 (lo b) (lo b))
  if bit then (d, addU256 c d) else (c, d)

/-- R191, `dstep256_full`: the 256-bit doubling step of FIBC256W, with full-width products. -/
def dstep256Full (a b : U256) (bit : Bool) : U256 × U256 :=
  let t := subU256 (addU256 b b) a
  let c := mulWide a t
  let d := addU256 (mulWide a a) (mulWide b b)
  if bit then (d, addU256 c d) else (c, d)

/-- The 128-bit doubling step on the engine's A and B registers, whose high limbs stay 0 (R160). -/
def dstep128Pair (a b : U256) (bit : Bool) : U256 × U256 :=
  let p := dstep128 (lo a) (lo b) bit
  (u256 0 p.1, u256 0 p.2)

/-- `msb_index(n)` (R9): the position of the most significant set bit, at J's 7 bits (R29). -/
def msbIndex (n : BitVec 64) : BitVec 7 := BitVec.ofNat 7 n.toNat.log2

/-- The source's recursion `drec` of R166, with `depth` levels left: 64 are enough for every 64-bit index, since each
level halves `n`. It defines FIBD128's result; the hardware runs the doubling engine (R166, decision D8). -/
def drec (depth : Nat) (n : BitVec 64) : Limb × Limb :=
  match depth with
  | 0 => (1, 1)
  | d + 1 =>
    if n.toNat < 2 then (1, 1)
    else
      let p := drec d (n >>> 1)
      dstep128 p.1 p.2 (n.getLsbD 0)

end Sys2Proof.Machine
end

