-- ==== Sys2Proof/Machine/Ops.lean ====
section
/-! DEFINITION. The shared operations of FIBCORE: latching and accepting a command (spec 20_memory.md R62), rejecting
one (60_exceptions.md R221) and the host's acknowledgement of it (R230), and the COMMIT step (10_state.md R33). -/

namespace Sys2Proof.Machine

/-- `raise Reject(c)` (R221), FIBCORE's one exceptional entry: ERR set and CODE written, nothing else. -/
def State.reject (s : State) (c : RejectCode) : State := { s with err := true, code := rejectBits c }

/-- A host write to STATUS (R36), the return from a rejection or a completion (R230): writing 1 clears DONE, ERR or
BWE; clearing ERR sets CODE to 0 in the same access (R37: DEDUCED for an ERR already 0, log entry 15); BUSY ignores
writes. -/
def State.writeStatus (s : State) (v : Word) : State :=
  { s with
    done := s.done && !v.getLsbD 1
    err := s.err && !v.getLsbD 2
    bwe := s.bwe && !v.getLsbD 3
    code := if v.getLsbD 2 then 0 else s.code }

/-- A host write to CTRL (R35): bit 0 is IE, the rest is ignored. -/
def State.writeCtrl (s : State) (v : Word) : State := { s with ie := v.getLsbD 0 }

/-- A host write discarded while BUSY (R64): only BWE is set. -/
def State.discard (s : State) : State := { s with bwe := true }

/-- The latching at acceptance (R26, R62), before `start(OP)`: OP, RD, SA, SB, SD, and DONE cleared. `rs1` and `rs2` are
bits [19:16] and [15:12] of the command word, whatever the format makes of them. -/
def State.latch (s : State) (op : Opcode) (rd rs1 rs2 : Reg) : State :=
  { s with op := op, rd := rd, sa := s.readW rs1, sb := s.readW rs2, sd := s.readW rd, done := false }

/-- A primitive's `start(OP)` (R103): the result is waiting for the commit. -/
def State.startPrimitive (s : State) (r : U256) : State := { s with res := r, ph := .commit }

/-- Acceptance of a primitive (R62, R103): latch, compute RES from the latched operands, enter COMMIT. -/
def acceptPrimitive (op : Opcode) (rd rs1 rs2 : Reg) (result : State → U256) (s : State) :
    Host.Outcome State Fault Refusal :=
  .next ((s.latch op rd rs1 rs2).startPrimitive (result (s.latch op rd rs1 rs2)))

/-- The CMD write of an engine command (R62, R87): rejected with NEG_INDEX when the index is negative (R223), otherwise
accepted: latch, K, and the family's start rule. -/
def acceptEngine (op : Opcode) (rd rs1 : Reg) (start : State → State) (s : State) :
    Host.Outcome State Fault Refusal :=
  if indexNegative (s.index rs1) then .next (s.reject .negIndex)
  else .next (start { s.latch op rd rs1 0 with k := s.index rs1 })

/-- The COMMIT step (R33). -/
def State.commitStep (s : State) : State := { s.writeW s.rd s.res with ph := .idle, done := true }

/-- Hardware reset (R250): every piece of FIBCORE state takes its reset value, and a running command is abandoned. The
moves still to come are the environment's and stay. One atomic move: DEDUCED, log entry 8. -/
def State.hardwareReset (s : State) : State := { State.reset with schedule := s.schedule }

end Sys2Proof.Machine
end

