-- ==== Sys2Proof/Machine/AddSub.lean ====
section
/-! DEFINITION. The adder and subtractor commands ADD, ADDS and SUB (spec 41_addsub.md). -/

namespace Sys2Proof.Machine

/-- ADD (R120): RES = trunc_256(SA + SB), by the limb adder. -/
def execAdd (rd rs1 rs2 : Reg) (s : State) : Host.Outcome State Fault Refusal :=
  acceptPrimitive 0x10#8 rd rs1 rs2 (fun t => addU256 t.sa t.sb) s

/-- ADDS (R121): RES = trunc_256(SD + SA.lo), in place in W[rd]. -/
def execAdds (rd rs1 : Reg) (s : State) : Host.Outcome State Fault Refusal :=
  acceptPrimitive 0x11#8 rd rs1 0 (fun t => addScalar t.sd (lo t.sa)) s

/-- SUB (R122): RES = trunc_256(SA - SB), as x + (~y + 1). -/
def execSub (rd rs1 rs2 : Reg) (s : State) : Host.Outcome State Fault Refusal :=
  acceptPrimitive 0x12#8 rd rs1 rs2 (fun t => subU256 t.sa t.sb) s

end Sys2Proof.Machine
end

