-- ==== Sys2Proof/Machine/Assign.lean ====
section
/-! DEFINITION. The assignment commands SETS, SETSI and COPY (spec 40_assign.md). -/

namespace Sys2Proof.Machine

/-- SETS (R100): RES = sext_256(SA.lo). -/
def execSets (rd rs1 : Reg) (s : State) : Host.Outcome State Fault Refusal :=
  acceptPrimitive 0x01#8 rd rs1 0 (fun t => setFromSigned (lo t.sa)) s

/-- SETSI (R101): RES = sext_256(w[19:0]). The values latched from bits [19:12] of the immediate are ignored (R62). -/
def execSetsi (rd : Reg) (imm : Int) (s : State) : Host.Outcome State Fault Refusal :=
  acceptPrimitive 0x02#8 rd ((immField imm).extractLsb' 16 4) ((immField imm).extractLsb' 12 4)
    (fun _ => setFromSigned (immLimb imm)) s

/-- COPY (R102): RES = SA, both limbs. -/
def execCopy (rd rs1 : Reg) (s : State) : Host.Outcome State Fault Refusal :=
  acceptPrimitive 0x03#8 rd rs1 0 (fun t => t.sa) s

end Sys2Proof.Machine
end

