-- ==== Sys2Proof/Machine/Fibonacci.lean ====
section
/-! DEFINITION. What the engine commands share: the start rule of the iterative engines (spec 43_fib128.md R161,
44_fib256.md R190), the doubling start rule (R163) and one LOOP step of each (R32, R161, R164, R190). -/

namespace Sys2Proof.Machine

/-- An engine command that needs no iteration: the result is waiting for the commit. -/
def State.engineResult (s : State) (r : U256) : State := { s with res := r, ph := .commit }

/-- An index below 2 is its own result: `RES <- u256(0, K)` (R161, R163, R190). -/
def indexResult (k : BitVec 64) : U256 := u256 0 (k.setWidth 128)

/-- `start` of FIBS128 and FIBI256 (R161, R190), K not negative. -/
def State.startIterative (s : State) : State :=
  if s.k.toNat < 2 then s.engineResult (indexResult s.k)
  else { s with n := s.k, a := 0, b := 1, i := 2, ph := .loop }

/-- `start` of the doubling engines (R163), K not negative: the bit scan is of N = K - 1. -/
def State.startDoubling (s : State) : State :=
  if s.k.toNat < 2 then s.engineResult (indexResult s.k)
  else
    let t := { s with n := s.k - 1, j := msbIndex (s.k - 1), a := 1, b := 1 }
    if t.j = 0 then t.engineResult t.b else { t with ph := .loop }

/-- One LOOP step of an iterative engine (R161, R190): `f` is the engine's sum of A and B, `a` and `b` the new pair. -/
def State.iterate (s : State) (a b f : U256) : State :=
  let t := { s with a := a, b := b, i := s.i + 1 }
  if s.n.ult t.i then t.engineResult f else t

/-- One LOOP step of a doubling engine (R164), with the engine's doubling step. -/
def State.double (s : State) (dstep : U256 → U256 → Bool → U256 × U256) : State :=
  let j := s.j - 1
  let p := dstep s.a s.b (s.n.getLsbD j.toNat)
  let t := { s with j := j, a := p.1, b := p.2 }
  if j = 0 then t.engineResult t.b else t

end Sys2Proof.Machine
end

