-- ==== Sys2Proof/Machine/Fib128.lean ====
section
/-! DEFINITION. The 128-bit engine commands FIBS128, FIBD128 and FIBC128 (spec 43_fib128.md): acceptance and one LOOP
step of each. -/

namespace Sys2Proof.Machine

/-- FIBS128 (R161): the iterative engine mod 2^128. -/
def execFibs128 (rd rs1 : Reg) (s : State) : Host.Outcome State Fault Refusal :=
  acceptEngine 0x30#8 rd rs1 State.startIterative s

/-- FIBD128 (R166): the recursive doubling, run on the doubling engine. -/
def execFibd128 (rd rs1 : Reg) (s : State) : Host.Outcome State Fault Refusal :=
  acceptEngine 0x31#8 rd rs1 State.startDoubling s

/-- FIBC128 (R165): the iterative doubling with the bit-length scan. -/
def execFibc128 (rd rs1 : Reg) (s : State) : Host.Outcome State Fault Refusal :=
  acceptEngine 0x32#8 rd rs1 State.startDoubling s

/-- A LOOP step of FIBS128 (R161): only the low limbs are used and written (R160). -/
def loopFibs128 (s : State) : State :=
  s.iterate (u256 0 (lo s.b)) (u256 0 (lo s.a + lo s.b)) (u256 0 (lo s.a + lo s.b))

/-- A LOOP step of FIBD128 (R164 with R162). -/
def loopFibd128 (s : State) : State := s.double dstep128Pair

/-- A LOOP step of FIBC128 (R164 with R162). -/
def loopFibc128 (s : State) : State := s.double dstep128Pair

end Sys2Proof.Machine
end

