-- ==== Sys2Proof/Machine/Fib256.lean ====
section
/-! DEFINITION. The 256-bit engine commands FIBI256, FIBC256 and FIBC256W (spec 44_fib256.md): acceptance and one LOOP
step of each. -/

namespace Sys2Proof.Machine

/-- FIBI256 (R190): the iterative engine mod 2^256. -/
def execFibi256 (rd rs1 : Reg) (s : State) : Host.Outcome State Fault Refusal :=
  acceptEngine 0x38#8 rd rs1 State.startIterative s

/-- FIBC256 (R193): the doubling engine with low-limb products. -/
def execFibc256 (rd rs1 : Reg) (s : State) : Host.Outcome State Fault Refusal :=
  acceptEngine 0x39#8 rd rs1 State.startDoubling s

/-- FIBC256W (R194): the doubling engine with full-width products. -/
def execFibc256w (rd rs1 : Reg) (s : State) : Host.Outcome State Fault Refusal :=
  acceptEngine 0x3A#8 rd rs1 State.startDoubling s

/-- A LOOP step of FIBI256 (R190). -/
def loopFibi256 (s : State) : State := s.iterate s.b (addU256 s.a s.b) (addU256 s.a s.b)

/-- A LOOP step of FIBC256 (R164 with R191's low-limb step). -/
def loopFibc256 (s : State) : State := s.double dstep256Lo

/-- A LOOP step of FIBC256W (R164 with R191's full-width step). -/
def loopFibc256w (s : State) : State := s.double dstep256Full

end Sys2Proof.Machine
end

