-- ==== Sys2Proof/Machine/Multiply.lean ====
section
/-! DEFINITION. The multiplier commands MUL and MULW (spec 42_multiply.md). -/

namespace Sys2Proof.Machine

/-- MUL (R140): RES = SA.lo * SB.lo, exactly; the high limbs are ignored. -/
def execMul (rd rs1 rs2 : Reg) (s : State) : Host.Outcome State Fault Refusal :=
  acceptPrimitive 0x20#8 rd rs1 rs2 (fun t => mul128 (lo t.sa) (lo t.sb)) s

/-- MULW (R141): RES = trunc_256(SA * SB). -/
def execMulw (rd rs1 rs2 : Reg) (s : State) : Host.Outcome State Fault Refusal :=
  acceptPrimitive 0x21#8 rd rs1 rs2 (fun t => mulWide t.sa t.sb) s

end Sys2Proof.Machine
end

