-- ==== Sys2Proof/Machine/Dispatch.lean ====
section
/-! DEFINITION. The meaning of a decoded command: what the CMD write that carries it does while STATUS.BUSY is 0 (spec
20_memory.md R62; the port checks BUSY first, R64: log entry 16). -/

namespace Sys2Proof.Machine

def exec (i : Instr) (s : State) : Host.Outcome State Fault Refusal :=
  match i with
  | .sets rd rs1 => Sys2Proof.Machine.execSets rd rs1 s
  | .setsi rd imm => Sys2Proof.Machine.execSetsi rd imm s
  | .copy rd rs1 => Sys2Proof.Machine.execCopy rd rs1 s
  | .add rd rs1 rs2 => Sys2Proof.Machine.execAdd rd rs1 rs2 s
  | .adds rd rs1 => Sys2Proof.Machine.execAdds rd rs1 s
  | .sub rd rs1 rs2 => Sys2Proof.Machine.execSub rd rs1 rs2 s
  | .mul rd rs1 rs2 => Sys2Proof.Machine.execMul rd rs1 rs2 s
  | .mulw rd rs1 rs2 => Sys2Proof.Machine.execMulw rd rs1 rs2 s
  | .fibs128 rd rs1 => Sys2Proof.Machine.execFibs128 rd rs1 s
  | .fibd128 rd rs1 => Sys2Proof.Machine.execFibd128 rd rs1 s
  | .fibc128 rd rs1 => Sys2Proof.Machine.execFibc128 rd rs1 s
  | .fibi256 rd rs1 => Sys2Proof.Machine.execFibi256 rd rs1 s
  | .fibc256 rd rs1 => Sys2Proof.Machine.execFibc256 rd rs1 s
  | .fibc256w rd rs1 => Sys2Proof.Machine.execFibc256w rd rs1 s

end Sys2Proof.Machine
end

