-- ==== Sys2Proof/Machine/Engine.lean ====
section
/-! DEFINITION. One turn of the engine agent, and several in a row (spec 10_state.md R31 to R33). -/

namespace Sys2Proof.Machine

/-- The six engine commands (R12). -/
inductive Engine where
  | fibs128
  | fibd128
  | fibc128
  | fibi256
  | fibc256
  | fibc256w
deriving DecidableEq, Repr

/-- The engine command a latched opcode names (R85); none for any other opcode. -/
def engineOf (op : Opcode) : Option Engine :=
  match op with
  | 0x30#8 => some .fibs128
  | 0x31#8 => some .fibd128
  | 0x32#8 => some .fibc128
  | 0x38#8 => some .fibi256
  | 0x39#8 => some .fibc256
  | 0x3A#8 => some .fibc256w
  | _ => none

/-- The LOOP step of one engine command (R32). -/
def loopOf : Engine → State → State
  | .fibs128, s => loopFibs128 s
  | .fibd128, s => loopFibd128 s
  | .fibc128, s => loopFibc128 s
  | .fibi256, s => loopFibi256 s
  | .fibc256, s => loopFibc256 s
  | .fibc256w, s => loopFibc256w s

/-- A LOOP step (R32): one iteration of the running engine command. OP is always an engine command's in LOOP; in a state
no run reaches, where it is not, the machine is stuck (safe, log entry 7). -/
def loopStep (s : State) : Host.Outcome State Fault Refusal :=
  match engineOf s.op with
  | some e => .next (loopOf e s)
  | none => .fault .loopWithoutEngine

/-- A turn of the engine (R31): enabled exactly when PH is not IDLE; an IDLE engine takes no step (R238). -/
def engineTurn (s : State) : Host.Outcome State Fault Refusal :=
  match s.ph with
  | .idle => .next s
  | .loop => loopStep s
  | .commit => .next s.commitStep

/-- `k` turns of the engine, with no host move between them (spec 10_state.md R31). -/
def engineRun (k : Nat) (s : State) : Host.Outcome State Fault Refusal :=
  match k with
  | 0 => .next s
  | k + 1 =>
    match engineTurn s with
    | .next t => engineRun k t
    | .fault r => .fault r
    | .refused r => .refused r

end Sys2Proof.Machine
end

