-- ==== Sys2Proof/Machine/Port.lean ====
section
/-! DEFINITION. The host window (spec 20_memory.md): host accesses, the command port, and one move of an execution. -/

namespace Sys2Proof.Machine

/-- A host write of a command word to CMD (R62, R64): discarded while BUSY, else decoded and rejected or given to its
meaning. CMD stores nothing (R38). -/
def cmdWrite (v : Word) (s : State) : Host.Outcome State Fault Refusal :=
  if s.busy then .next s.discard
  else
    match decode v with
    | .rejected c => .next (s.reject c)
    | .command i => exec i s

/-- A host write to word `j` of W register `r` (R54); discarded while BUSY (R64). -/
def wWindowWrite (r : Reg) (j : Fin 8) (v : Word) (s : State) : State :=
  if s.busy then s.discard else s.writeW r (setWordOf (s.readW r) j v)

/-- A 32-bit host write to a window register (R51): ID, ERRCODE and reserved offsets ignore it (R34, R37, R55). -/
def windowWrite (g : WindowReg) (v : Word) (s : State) : Host.Outcome State Fault Refusal :=
  match g with
  | .id => .next s
  | .ctrl => .next (s.writeCtrl v)
  | .status => .next (s.writeStatus v)
  | .errcode => .next s
  | .cmd => cmdWrite v s
  | .reserved => .next s
  | .wWord r j => .next (wWindowWrite r j v s)

/-- A host access that has reached the window at an offset (R57): a 32-bit access at a multiple of 4 reads or writes a
register; any other gets a bus error and changes no FIBCORE state (a next state, as R57 says: log entry 6). -/
def windowAccess (off : Nat) (op : HostOp) (s : State) : Host.Outcome State Fault Refusal :=
  if off % 4 = 0 then
    match op with
    | .read .word => .next { s with resp := .data (s.hostRead off) }
    | .write (.word v) => windowWrite (windowReg off) v { s with resp := .written }
    | _ => .next { s with resp := .busError }
  else .next { s with resp := .busError }

/-- A host access (R50, R61): one atomic step of the host. An access that does not reach the window is not FIBCORE's to
answer: a fault, safe, log entry 5. -/
def hostAccess (a : HostAccess) (s : State) : Host.Outcome State Fault Refusal :=
  match a.addr.windowOffset? with
  | none => .fault .outsideWindow
  | some off => windowAccess off a.op s

/-- One move of an execution (R70, R71, R250). -/
def takeMove (m : Move) (s : State) : Host.Outcome State Fault Refusal :=
  match m with
  | .host a => hostAccess a s
  | .engine => engineTurn s
  | .reset => .next s.hardwareReset

/-- One atomic step of the host and engine together: the first scheduled move; with none left, the engine's turn, so
that an enabled engine step is taken (weak fairness, R261). DESIGN CHOICE, safe: log entry 1. -/
def nextMove (s : State) : Host.Outcome State Fault Refusal :=
  match s.schedule with
  | [] => engineTurn s
  | m :: rest => takeMove m { s with schedule := rest }

/-- `s` with an IDLE engine and the host's CMD write of `v` as the very next move. -/
def State.withCommand (s : State) (v : Word) : State :=
  { s with ph := .idle, schedule := hostWrite32 cmdOffset v :: s.schedule }

end Sys2Proof.Machine
end

