-- ==== Sys2Proof/Machine/Step.lean ====
section
/-! DEFINITION. One step of the machine, and how a command word is placed where the next step takes it. -/

namespace Sys2Proof.Machine

/-- One step: one atomic move of the host, the engine or the reset input (spec 20_memory.md R70, R71). -/
def step (s : State) : Host.Outcome State Fault Refusal := nextMove s

/-- `s` with the command word of `nbits` bits `w` arriving next at the CMD port, engine IDLE, so that the very next step
runs it. FIBCORE fetches nothing (10_state.md R24): the host supplies each command, and this stands for its CMD write.
DEDUCED, log entry 9. -/
def State.withFetchWord (s : State) (nbits w : Nat) : State := s.withCommand (tableWord nbits w)

end Sys2Proof.Machine
end

