-- ==== Sys2Proof/Machine/Assembler.lean ====
section
/-! DEFINITION. The assembler's syntax (spec 30_encoding.md R90) and its pseudo-instructions (R91), on a line of
characters. Syntax has no effect on execution (decision D28). Points R90 leaves open: DESIGN CHOICE, safe, log entry 11. -/

namespace Sys2Proof.Machine

/-- What the assembler makes of a line: nothing (blank, or only a comment), a command, or a refusal of the line. -/
inductive Assembled where
  | blank
  | command (i : Instr)
  | refused
deriving DecidableEq, Repr

/-- A space or a tab. -/
def isBlankChar (c : Char) : Bool := c == ' ' || c == '\t'

/-- A line without its comment, which `;` introduces (R90). -/
def stripComment (cs : List Char) : List Char := cs.takeWhile (fun c => c != ';')

/-- Blanks removed at both ends. -/
def trimBlanks (cs : List Char) : List Char := ((cs.dropWhile isBlankChar).reverse.dropWhile isBlankChar).reverse

/-- The pieces between commas. -/
def splitCommas : List Char → List (List Char)
  | [] => [[]]
  | c :: cs =>
    match splitCommas cs with
    | [] => [[c]]
    | p :: ps => if c = ',' then [] :: p :: ps else (c :: p) :: ps

/-- The operands of a line: what stands between commas, blanks trimmed; none when nothing stands there. -/
def operandsOf (cs : List Char) : List (List Char) :=
  if trimBlanks cs = [] then [] else (splitCommas cs).map trimBlanks

/-- The value of a digit character in base 16; 16 for a character that is no digit. -/
def digitValue (c : Char) : Nat :=
  let n := c.toNat
  if 48 ≤ n ∧ n ≤ 57 then n - 48
  else if 97 ≤ n ∧ n ≤ 102 then n - 87
  else if 65 ≤ n ∧ n ≤ 70 then n - 55
  else 16

/-- A run of digits of a base as a number, after `acc`. -/
def parseDigits (base acc : Nat) : List Char → Option Nat
  | [] => some acc
  | c :: cs => if digitValue c < base then parseDigits base (acc * base + digitValue c) cs else none

/-- An unsigned number: decimal, or `0x` and hexadecimal digits (R90). -/
def parseNumber : List Char → Option Nat
  | [] => none
  | '0' :: 'x' :: c :: cs => parseDigits 16 0 (c :: cs)
  | c :: cs => parseDigits 10 0 (c :: cs)

/-- An immediate (R90): a number, optionally negative; refused outside -524288 to 524287, never truncated. -/
def parseImm (cs : List Char) : Option Int :=
  let v : Option Int :=
    match cs with
    | '-' :: ds => (parseNumber ds).map (fun n => -(n : Int))
    | ds => (parseNumber ds).map (fun n => (n : Int))
  match v with
  | some imm => if immFits imm then some imm else none
  | none => none

/-- A register name `w0` to `w15` (R90). -/
def parseReg : List Char → Option Reg
  | ['w', c] => if digitValue c < 10 then some (BitVec.ofNat 4 (digitValue c)) else none
  | ['w', '1', c] => if digitValue c < 6 then some (BitVec.ofNat 4 (10 + digitValue c)) else none
  | _ => none

/-- Operands of format R3 (R90): `wD, wS1, wS2`. -/
def asmR3 (mk : Reg → Reg → Reg → Instr) : List (List Char) → Assembled
  | [d, x, y] =>
    match parseReg d, parseReg x, parseReg y with
    | some rd, some rs1, some rs2 => .command (mk rd rs1 rs2)
    | _, _, _ => .refused
  | _ => .refused

/-- Operands of format R2 (R90): `wD, wS1`. -/
def asmR2 (mk : Reg → Reg → Instr) : List (List Char) → Assembled
  | [d, x] =>
    match parseReg d, parseReg x with
    | some rd, some rs1 => .command (mk rd rs1)
    | _, _ => .refused
  | _ => .refused

/-- Operands of format I20 (R90): `wD, imm`. -/
def asmI20 (mk : Reg → Int → Instr) : List (List Char) → Assembled
  | [d, x] =>
    match parseReg d, parseImm x with
    | some rd, some imm => .command (mk rd imm)
    | _, _ => .refused
  | _ => .refused

/-- The operand of CLR (R91): `wD`. -/
def asmR1 (mk : Reg → Instr) : List (List Char) → Assembled
  | [d] =>
    match parseReg d with
    | some rd => .command (mk rd)
    | none => .refused
  | _ => .refused

/-- One command from an upper-case mnemonic and its operands: the commands of R85, then the pseudo-instructions of R91,
each of which expands to exactly one command. -/
def assembleCommand (mnemonic : String) (ops : List (List Char)) : Assembled :=
  match mnemonic with
  | "SETS" => asmR2 .sets ops
  | "SETSI" => asmI20 .setsi ops
  | "COPY" => asmR2 .copy ops
  | "ADD" => asmR3 .add ops
  | "ADDS" => asmR2 .adds ops
  | "SUB" => asmR3 .sub ops
  | "MUL" => asmR3 .mul ops
  | "MULW" => asmR3 .mulw ops
  | "FIBS128" => asmR2 .fibs128 ops
  | "FIBD128" => asmR2 .fibd128 ops
  | "FIBC128" => asmR2 .fibc128 ops
  | "FIBI256" => asmR2 .fibi256 ops
  | "FIBC256" => asmR2 .fibc256 ops
  | "FIBC256W" => asmR2 .fibc256w ops
  | "LI" => asmI20 .setsi ops
  | "CLR" => asmR1 (fun rd => .setsi rd 0) ops
  | "MOV" => asmR2 .copy ops
  | "DBL" => asmR2 (fun rd rs => .add rd rs rs) ops
  | "SQR" => asmR2 (fun rd rs => .mul rd rs rs) ops
  | _ => .refused

/-- The assembler on one line (R90): `MNEMONIC operands`, mnemonics in any case, `;` before a comment. -/
def assemble (line : List Char) : Assembled :=
  match trimBlanks (stripComment line) with
  | [] => .blank
  | cs =>
    assembleCommand (String.ofList ((cs.takeWhile (fun c => !isBlankChar c)).map Char.toUpper))
      (operandsOf (cs.dropWhile (fun c => !isBlankChar c)))

end Sys2Proof.Machine
end

