-- ==== Sys2Proof/Machine/HostScript.lean ====
section
/-! DEFINITION. The host scripts of the spec's notation (00_scope.md R11): WR32, RD32, ISSUE and WAIT, as moves of the
host agent. They are a way to write a host down, no part of FIBCORE. -/

namespace Sys2Proof.Machine

/-- One line of a host script (R11). -/
inductive ScriptLine where
  | wr32 (off : Nat) (v : Word)
  | rd32 (off : Nat)
  | issue (i : Instr)
  | wait
deriving DecidableEq, Repr

/-- Whether the last access read a STATUS whose BUSY bit is 0 (R36). -/
def State.pollSawIdle (s : State) : Bool :=
  match s.resp with
  | .data v => !v.getLsbD 0
  | _ => false

/-- WAIT (R11): read STATUS until BUSY reads 0, at most `polls` times, one engine turn between two reads. The bound and
the turns are the model's: DESIGN CHOICE, safe, log entry 17. -/
def waitPolls (polls : Nat) (s : State) : Host.Outcome State Fault Refusal :=
  match polls with
  | 0 => .next s
  | p + 1 =>
    match takeMove (hostRead32 statusOffset) s with
    | .next t =>
      if t.pollSawIdle then .next t
      else
        match engineTurn t with
        | .next u => waitPolls p u
        | o => o
    | o => o

/-- One line of a host script; ISSUE is a WR32 of the command's word to CMD (R11). -/
def runLine (polls : Nat) (l : ScriptLine) (s : State) : Host.Outcome State Fault Refusal :=
  match l with
  | .wr32 off v => takeMove (hostWrite32 off v) s
  | .rd32 off => takeMove (hostRead32 off) s
  | .issue i => takeMove (hostWrite32 cmdOffset (encode i)) s
  | .wait => waitPolls polls s

/-- A host script, line by line, with `turns.head` engine turns before the first line and so on. R5 and R11 leave open
where engine steps fall between lines (95_test_vectors.md P4 has two outcomes by it): every count is some `turns`. That
the counts are the caller's, and no turn where the list has ended, is the model's: DESIGN CHOICE, safe, log entry 17. -/
def runScript (polls : Nat) (turns : List Nat) (ls : List ScriptLine) (s : State) : Host.Outcome State Fault Refusal :=
  match ls with
  | [] => .next s
  | l :: rest =>
    match engineRun (turns.headD 0) s with
    | .next t =>
      match runLine polls l t with
      | .next u => runScript polls turns.tail rest u
      | o => o
    | o => o

end Sys2Proof.Machine
end

