-- ==== Sys2Proof/Safety.lean ====
section
/-! DEFINITION. The terms claims about FIBCORE are stated in: a command's run, the rejection rule and one iteration as the
spec writes them, the invariants a good state meets, and what can be told apart. -/

namespace Sys2Proof.Machine

/-- A command accepted in `t` takes `steps` LOOP steps, BUSY and with the W file unchanged, and then commits `v` to
`W[rd]` (R32, R33, 70_reset_and_hazards.md R260); CTRL, ERR, BWE and ERRCODE do not change. -/
def RunsTo (steps : Nat) (rd : Reg) (v : U256) (t : State) : Prop :=
  (∀ m, m ≤ steps → ∃ x, engineRun m t = .next x ∧ x.busy = true ∧ x.w = t.w) ∧
  ∃ u, engineRun (steps + 1) t = .next u ∧ u.w = (t.writeW rd v).w ∧ u.ph = .idle ∧ u.done = true ∧
    u.ie = t.ie ∧ u.err = t.err ∧ u.bwe = t.bwe ∧ u.code = t.code ∧ u.schedule = t.schedule ∧ u.resp = t.resp

/-- What a host sees of a command's acceptance, which takes `s` to `t` (20_memory.md R62, R63): DONE is cleared, and the
W file, CTRL, ERR, BWE and ERRCODE are as before. -/
def AcceptedFrom (s t : State) : Prop :=
  t.done = false ∧ t.w = s.w ∧ t.ie = s.ie ∧ t.err = s.err ∧ t.bwe = s.bwe ∧ t.code = s.code ∧
  t.schedule = s.schedule ∧ t.resp = s.resp

/-- LOOP steps of an iterative engine (R260): K - 1 for K ≥ 2, else 0. -/
def iterativeSteps (k : Nat) : Nat := k - 1

/-- LOOP steps of a doubling engine (R260): msb_index(K - 1) for K ≥ 2, else 0. -/
def doublingSteps (k : Nat) : Nat := if k < 2 then 0 else (k - 1).log2

/-- F(k) mod 2^128 as a limb (00_scope.md R10). -/
def fibLimb (k : Nat) : Limb := BitVec.ofNat 128 (Nat.fib k)

/-- F(k) mod 2^128 in the low limb, 0 in the high limb (43_fib128.md R160). -/
def fib128 (k : Nat) : U256 := u256 0 (fibLimb k)

/-- F(k) mod 2^256. -/
def fib256 (k : Nat) : U256 := BitVec.ofNat 256 (Nat.fib k)

/-- The opcodes of the engine commands (30_encoding.md R85). -/
def engineOpcodes : List Opcode := [0x30#8, 0x31#8, 0x32#8, 0x38#8, 0x39#8, 0x3A#8]

/-- Why a command word written in state `s` is rejected, in the order of R87 and R224; none when it is accepted. Written
from R87 itself, without the decoder. -/
def rejectCause (v : Word) (s : State) : Option RejectCode :=
  if v.extractLsb' 24 8 ∉ listedOpcodes then some .illegalOpcode
  else if formatOf (v.extractLsb' 24 8) = some .r3 ∧ v.extractLsb' 0 12 ≠ 0 then some .reservedField
  else if formatOf (v.extractLsb' 24 8) = some .r2 ∧ v.extractLsb' 0 16 ≠ 0 then some .reservedField
  else if v.extractLsb' 24 8 ∈ engineOpcodes ∧
      ((s.readW (v.extractLsb' 16 4)).extractLsb' 0 64).toInt < 0 then some .negIndex
  else none

/-- `s` after its first move, a host access answered `r`, has left the schedule: what a step adds around a meaning. -/
def State.served (s : State) (rest : List Move) (r : Response) : State := { s with schedule := rest, resp := r }

/-- `s` with an engine command of opcode `op` accepted, before its start rule (20_memory.md R62): a command of format
R2, whose bits [15:12] are 0. -/
def State.acceptedEngine (s : State) (op : Opcode) (rd rs1 : Reg) : State :=
  { s with
    op := op
    rd := rd
    sa := s.readW rs1
    sb := s.readW 0
    sd := s.readW rd
    done := false
    k := (s.readW rs1).extractLsb' 0 64 }

/-- What the status registers promise: ERR is 0 exactly when CODE is NONE (R37, 60_exceptions.md R222), CODE is a listed
code (R222), and DONE is 0 while a command runs (10_state.md R36). -/
def StatusInv (s : State) : Prop :=
  (s.err = false ↔ s.code = 0) ∧ s.code.toNat ≤ 3 ∧ (s.busy = true → s.done = false)

/-- Whether an engine is one of the two iterative ones (R29). -/
def Engine.iterative : Engine → Bool
  | .fibs128 => true
  | .fibd128 => false
  | .fibc128 => false
  | .fibi256 => true
  | .fibc256 => false
  | .fibc256w => false

/-- How a doubling step picks the new pair from c = F(2m) and d = F(2m+1) (43_fib128.md R162, 44_fib256.md R191). -/
def doublingPair {w : Nat} (c d : BitVec w) (bit : Bool) : BitVec w × BitVec w := if bit then (d, c + d) else (c, d)

/-- The pair (A, B) after one more iteration of a running engine command, in plain modular arithmetic: R161 and R190 for
the iterative engines; R164 with R162 or R191 for the doubling engines, whose bit is N[J - 1]. -/
def nextPair (e : Engine) (s : State) : U256 × U256 :=
  let a := s.a
  let b := s.b
  let bit := s.n.getLsbD (s.j.toNat - 1)
  let narrow := doublingPair (lo a * (lo b + lo b - lo a)) (lo a * lo a + lo b * lo b) bit
  let wide := fun l : Limb => l.setWidth 256
  match e with
  | .fibs128 => (u256 0 (lo b), u256 0 (lo a + lo b))
  | .fibd128 => (u256 0 narrow.1, u256 0 narrow.2)
  | .fibc128 => (u256 0 narrow.1, u256 0 narrow.2)
  | .fibi256 => (b, a + b)
  | .fibc256 =>
    doublingPair (wide (lo a) * wide (lo (b + b - a))) (wide (lo a) * wide (lo a) + wide (lo b) * wide (lo b)) bit
  | .fibc256w => doublingPair (a * (b + b - a)) (a * a + b * b) bit

/-- The pair state (A, B) is (F(m), F(m+1)) reduced to the engine's width (R28, 43_fib128.md R164). FIBC256's low-limb
products keep only the low limbs for every m; A is whole up to m = 369 and B up to m = 370 (44_fib256.md R196, R198). -/
def PairOk : Engine → Nat → U256 → U256 → Prop
  | .fibs128, m, a, b => a = fib128 m ∧ b = fib128 (m + 1)
  | .fibd128, m, a, b => a = fib128 m ∧ b = fib128 (m + 1)
  | .fibc128, m, a, b => a = fib128 m ∧ b = fib128 (m + 1)
  | .fibi256, m, a, b => a = fib256 m ∧ b = fib256 (m + 1)
  | .fibc256, m, a, b =>
    lo a = fibLimb m ∧ lo b = fibLimb (m + 1) ∧ (m ≤ 369 → a = fib256 m) ∧ (m ≤ 370 → b = fib256 (m + 1))
  | .fibc256w, m, a, b => a = fib256 m ∧ b = fib256 (m + 1)

/-- An engine command's result for the index `k` (R168, R195 to R198). -/
def ResultOk : Engine → Nat → U256 → Prop
  | .fibs128, k, r => r = fib128 k
  | .fibd128, k, r => r = fib128 k
  | .fibc128, k, r => r = fib128 k
  | .fibi256, k, r => r = fib256 k
  | .fibc256, k, r => lo r = fibLimb k ∧ (k ≤ 371 → r = fib256 k)
  | .fibc256w, k, r => r = fib256 k

/-- What holds of a running engine command between two LOOP steps (R29, R161, R163, R164, R190). -/
def LoopOk (e : Engine) (s : State) : Prop :=
  if e.iterative then
    s.n = s.k ∧ 2 ≤ s.i.toNat ∧ s.i.toNat ≤ s.n.toNat ∧ PairOk e (s.i.toNat - 2) s.a s.b
  else
    s.n = s.k - 1 ∧ 2 ≤ s.k.toNat ∧ 1 ≤ s.j.toNat ∧ s.j.toNat ≤ 62 ∧ 1 ≤ s.n.toNat >>> s.j.toNat ∧
      PairOk e (s.n.toNat >>> s.j.toNat) s.a s.b

/-- The engine's invariant (43_fib128.md R164): in LOOP an engine command runs, on a non-negative index, and its pair is
right; in COMMIT an engine command's RES is its result. -/
def EngineInv (s : State) : Prop :=
  match s.ph with
  | .idle => True
  | .loop => ∃ e, engineOf s.op = some e ∧ s.k.msb = false ∧ LoopOk e s
  | .commit => ∀ e, engineOf s.op = some e → s.k.msb = false ∧ ResultOk e s.k.toNat s.res

/-- Two states that no host can tell apart now or later (10_state.md R30): everything outside the internal latches is
equal, and so is every latch that the running command still reads. -/
def SameToHost (s t : State) : Prop :=
  s.w = t.w ∧ s.ph = t.ph ∧ s.ie = t.ie ∧ s.done = t.done ∧ s.err = t.err ∧ s.bwe = t.bwe ∧ s.code = t.code ∧
  s.schedule = t.schedule ∧ s.resp = t.resp ∧
  (s.ph = .commit → s.rd = t.rd ∧ s.res = t.res) ∧
  (s.ph = .loop → s.op = t.op ∧ s.rd = t.rd ∧ s.n = t.n ∧ s.a = t.a ∧ s.b = t.b ∧
    (∀ e, engineOf s.op = some e → if e.iterative then s.i = t.i else s.j = t.j))

end Sys2Proof.Machine
end

