-- ==== Sys2Proof/Certificates/Slice0/Obligations.lean ====
section
/-! DEFINITION. The statements about FIBCORE for the provers. -/

open Sys2Proof Sys2Proof.Machine

/-! ### Encoding -/

/-- Every well-formed command's word decodes to that command (30_encoding.md R81 to R85). -/
def Obligations.DecodeOfEncode : Prop := ∀ i : Instr, i.WellFormed → decode (encode i) = .command i

/-- Every command word has one meaning: a word that decodes to a command is that command's encoding, and the command is
well formed (R81 to R87). -/
def Obligations.EncodeOfDecode : Prop :=
  ∀ (v : Word) (i : Instr), decode v = .command i → i.WellFormed ∧ encode i = v

/-- The decoder rejects exactly the words R86 calls illegal, and 242 of the 256 opcode values are unlisted. That it never
answers NEG_INDEX is the MODEL's choice (log entry 14, DEDUCED): R87's decode makes that check too, and the model makes
it in the engine commands' meanings. -/
def Obligations.DecodeRejectsExactlyIllegalWords : Prop :=
  (∀ v : Word,
    (decode v = .rejected .illegalOpcode ↔ v.extractLsb' 24 8 ∉ listedOpcodes) ∧
    (decode v = .rejected .reservedField ↔
      (formatOf (v.extractLsb' 24 8) = some .r3 ∧ v.extractLsb' 0 12 ≠ 0) ∨
      (formatOf (v.extractLsb' 24 8) = some .r2 ∧ v.extractLsb' 0 16 ≠ 0)) ∧
    decode v ≠ .rejected .negIndex) ∧
  ((List.range 256).filter (fun n => BitVec.ofNat 8 n ∉ listedOpcodes)).length = 242

/-- The example words of R89 decode as R89 says. -/
def Obligations.DecodeExampleWords : Prop :=
  decode 0x02100064#32 = .command (.setsi 1 100) ∧
  decode 0x021FFFFF#32 = .command (.setsi 1 (-1)) ∧
  decode 0x01210000#32 = .command (.sets 2 1) ∧
  decode 0x03430000#32 = .command (.copy 4 3) ∧
  decode 0x10312000#32 = .command (.add 3 1 2) ∧
  decode 0x11560000#32 = .command (.adds 5 6) ∧
  decode 0x12732000#32 = .command (.sub 7 3 2) ∧
  decode 0x20812000#32 = .command (.mul 8 1 2) ∧
  decode 0x21912000#32 = .command (.mulw 9 1 2) ∧
  decode 0x30010000#32 = .command (.fibs128 0 1) ∧
  decode 0x31010000#32 = .command (.fibd128 0 1) ∧
  decode 0x32010000#32 = .command (.fibc128 0 1) ∧
  decode 0x38010000#32 = .command (.fibi256 0 1) ∧
  decode 0x39010000#32 = .command (.fibc256 0 1) ∧
  decode 0x3A010000#32 = .command (.fibc256w 0 1) ∧
  decode 0x00000000#32 = .rejected .illegalOpcode ∧
  decode 0x10312001#32 = .rejected .reservedField ∧
  decode 0x03431000#32 = .rejected .reservedField

/-- R83: the immediate of a SETSI word is its 20-bit field read as two's complement, sign-extended to a limb; it lies in
-524288 to 524287. -/
def Obligations.ImmediateIsSignExtendedField : Prop :=
  ∀ v : Word, v.extractLsb' 24 8 = 0x02#8 →
    decode v = .command (.setsi (v.extractLsb' 20 4) (v.extractLsb' 0 20).toInt) ∧
    immLimb (v.extractLsb' 0 20).toInt = (v.extractLsb' 0 20).signExtend 128 ∧
    -524288 ≤ (v.extractLsb' 0 20).toInt ∧ (v.extractLsb' 0 20).toInt ≤ 524287

/-! ### The command port -/

/-- A step runs the decoded command: a word that arrives at CMD while the engine is IDLE and decodes to `i` does what
`exec i` does, in the state whose first move is taken and answered (20_memory.md R62). -/
def Obligations.StepRunsDecodedCommand : Prop :=
  ∀ (s : State) (v : Word) (rest : List Move) (i : Instr),
    s.schedule = hostWrite32 0x010 v :: rest → s.ph = .idle → decode v = .command i →
    i.WellFormed ∧ step s = exec i (s.served rest .written)

/-- 60_exceptions.md R221: a word that R87 rejects, written to an IDLE engine, sets ERR and writes CODE and changes
nothing else; CODE is R222's number: 1 for ILLEGAL_OPCODE, 2 for RESERVED_FIELD, 3 for NEG_INDEX. The engine stays IDLE
and irq rises if IE is 1. -/
def Obligations.CommandRejectionIsPrecise : Prop :=
  ∀ (s : State) (v : Word) (rest : List Move), s.schedule = hostWrite32 0x010 v :: rest → s.ph = .idle →
    ∀ p ∈ [(RejectCode.illegalOpcode, 1#4), (.reservedField, 2#4), (.negIndex, 3#4)], rejectCause v s = some p.1 →
      ∃ t, step s = .next t ∧ t = { s.served rest .written with err := true, code := p.2 } ∧
        t.busy = false ∧ t.irq = s.ie

/-- R63: acceptance changes none of ERR, BWE, ERRCODE and CTRL; a rejection changes none of DONE, BWE, CTRL, the W file
and PH: it only writes ERR and ERRCODE. -/
def Obligations.AcceptanceAndRejectionFrames : Prop :=
  ∀ (s : State) (v : Word) (rest : List Move),
    s.schedule = hostWrite32 0x010 v :: rest → s.ph = .idle →
    (rejectCause v s = none → ∃ t, step s = .next t ∧ t.busy = true ∧
      t.err = s.err ∧ t.bwe = s.bwe ∧ t.code = s.code ∧ t.ie = s.ie) ∧
    (∀ c, rejectCause v s = some c → ∃ t, step s = .next t ∧
      t.done = s.done ∧ t.bwe = s.bwe ∧ t.ie = s.ie ∧ t.w = s.w ∧ t.ph = s.ph ∧
      { t with err := s.err, code := s.code } = s.served rest .written)

/-- R62: an accepted word latches OP, RD, SA, SB, SD from its fields whatever its format, K for an engine command, clears
DONE, and makes the engine BUSY; the W file does not change (10_state.md R21, R26). -/
def Obligations.AcceptanceLatchesOperands : Prop :=
  ∀ (s : State) (v : Word) (rest : List Move),
    s.schedule = hostWrite32 0x010 v :: rest → s.ph = .idle → rejectCause v s = none →
    ∃ t, step s = .next t ∧
      t.op = v.extractLsb' 24 8 ∧ t.rd = v.extractLsb' 20 4 ∧
      t.sa = s.readW (v.extractLsb' 16 4) ∧ t.sb = s.readW (v.extractLsb' 12 4) ∧ t.sd = s.readW (v.extractLsb' 20 4) ∧
      (v.extractLsb' 24 8 ∈ engineOpcodes → t.k = (s.readW (v.extractLsb' 16 4)).extractLsb' 0 64) ∧
      (v.extractLsb' 24 8 ∉ engineOpcodes → t.k = s.k) ∧
      t.done = false ∧ t.busy = true ∧ t.w = s.w ∧ t.schedule = rest

/-- R64: while BUSY a host write to CMD or to a W-window offset changes no state except BWE. -/
def Obligations.BusyWritesAreDiscarded : Prop :=
  ∀ (s : State) (off : Nat) (v : Word) (rest : List Move),
    s.schedule = hostWrite32 off v :: rest → s.busy = true →
    (off = 0x010 ∨ (0x200 ≤ off ∧ off < 0x400 ∧ off % 4 = 0)) →
    step s = .next { s.served rest .written with bwe := true }

/-- R65 and R64: no host access disturbs a running command: PH, every latch and the W file are unchanged. -/
def Obligations.HostAccessKeepsRunningCommand : Prop :=
  ∀ (s t : State) (x : HostAccess) (rest : List Move),
    s.schedule = .host x :: rest → s.busy = true → step s = .next t →
    t.w = s.w ∧ t.ph = s.ph ∧ t.op = s.op ∧ t.rd = s.rd ∧ t.sa = s.sa ∧ t.sb = s.sb ∧ t.sd = s.sd ∧ t.k = s.k ∧
    t.res = s.res ∧ t.a = s.a ∧ t.b = s.b ∧ t.n = s.n ∧ t.j = s.j ∧ t.i = s.i

/-! ### The host window -/

/-- R59: a 32-bit read at an aligned window offset answers the register's value and changes no FIBCORE state. -/
def Obligations.ReadHasNoSideEffect : Prop :=
  ∀ (s : State) (off : Nat) (rest : List Move),
    s.schedule = hostRead32 off :: rest → off < 0x400 → off % 4 = 0 →
    step s = .next (s.served rest (.data (s.hostRead off)))

/-- The window map (R51, R52, R53, 10_state.md R34 to R38): what each offset reads, in any phase. -/
def Obligations.WindowReadsRegisters : Prop :=
  ∀ s : State,
    s.hostRead 0x000 = 0x46494231#32 ∧
    s.hostRead 0x004 = BitVec.ofNat 32 s.ie.toNat ∧
    s.hostRead 0x008 =
      BitVec.ofNat 32 (s.busy.toNat + 2 * s.done.toNat + 4 * s.err.toNat + 8 * s.bwe.toNat) ∧
    s.hostRead 0x00C = BitVec.ofNat 32 s.code.toNat ∧
    s.hostRead 0x010 = 0 ∧
    (∀ off, 0x014 ≤ off → off < 0x200 → s.hostRead off = 0) ∧
    (∀ (r : Reg) (j : Fin 8), s.hostRead (0x200 + 32 * r.toNat + 4 * j.val) = (s.readW r).extractLsb' (32 * j.val) 32)

/-- R54: a host write to word j of W[r] while BUSY is 0 replaces those 32 bits and leaves the other 224 unchanged, and
nothing else changes; the same write while BUSY is 1 is discarded. -/
def Obligations.WindowWriteReplacesOneWord : Prop :=
  ∀ (s : State) (r : Reg) (j : Fin 8) (v : Word) (rest : List Move),
    s.schedule = hostWrite32 (0x200 + 32 * r.toNat + 4 * j.val) v :: rest →
    (s.busy = false → ∃ t, step s = .next t ∧
      (∀ b, b < 256 → (t.readW r).getLsbD b =
        if 32 * j.val ≤ b ∧ b < 32 * j.val + 32 then v.getLsbD (b - 32 * j.val) else (s.readW r).getLsbD b) ∧
      (∀ r', r' ≠ r → t.readW r' = s.readW r') ∧
      { t with w := s.w } = s.served rest .written) ∧
    (s.busy = true → step s = .next { s.served rest .written with bwe := true })

/-- R56: the window is little-endian: byte m of W[r]'s 32 bytes, at offset 0x200 + 32 r + m, is bits [8m+7:8m]. -/
def Obligations.WindowBytesAreLittleEndian : Prop :=
  ∀ (s : State) (r : Reg) (m : Nat), m < 32 →
    s.windowByte (0x200 + 32 * r.toNat + m) = (s.readW r).extractLsb' (8 * m) 8

/-- R55: a reserved offset reads 0 and ignores writes, BWE included, in any phase; reserved bits of CTRL, STATUS and
ERRCODE read 0, and writes to the reserved bits of CTRL and STATUS, and to ERRCODE, are ignored. 10_state.md R34: ID
holds its constant in every state, and a write to it changes no state. -/
def Obligations.ReservedStateReadsZeroIgnoresWrites : Prop :=
  ∀ (s : State) (v v' : Word) (rest : List Move),
    (∀ off, s.schedule = hostWrite32 off v :: rest → off % 4 = 0 → 0x014 ≤ off → off < 0x200 →
      s.hostRead off = 0 ∧ step s = .next (s.served rest .written)) ∧
    (∀ b, (1 ≤ b → (s.hostRead 0x004).getLsbD b = false) ∧ (4 ≤ b → (s.hostRead 0x008).getLsbD b = false) ∧
      (4 ≤ b → (s.hostRead 0x00C).getLsbD b = false)) ∧
    (v.getLsbD 0 = v'.getLsbD 0 →
      step { s with schedule := hostWrite32 0x004 v :: rest } = step { s with schedule := hostWrite32 0x004 v' :: rest }) ∧
    (v.getLsbD 1 = v'.getLsbD 1 → v.getLsbD 2 = v'.getLsbD 2 → v.getLsbD 3 = v'.getLsbD 3 →
      step { s with schedule := hostWrite32 0x008 v :: rest } = step { s with schedule := hostWrite32 0x008 v' :: rest }) ∧
    step { s with schedule := hostWrite32 0x00C v :: rest } = .next (s.served rest .written) ∧
    s.hostRead 0x000 = 0x46494231#32 ∧
    step { s with schedule := hostWrite32 0x000 v :: rest } = .next (s.served rest .written)

/-- R57: an access in the window that is not 32 bits wide, or not at a multiple of 4, gets a bus error and changes no
FIBCORE state. -/
def Obligations.MalformedAccessGetsBusError : Prop :=
  ∀ (s : State) (x : HostAccess) (off : Nat) (rest : List Move),
    s.schedule = .host x :: rest → x.addr.windowOffset? = some off → (x.op.size ≠ .word ∨ off % 4 ≠ 0) →
    step s = .next (s.served rest .busError)

/-- The MODEL's choice (log entry 5): an access that does not reach the 1024 bytes of the window is a fault; R50 says
which accesses reach it. -/
def Obligations.AccessOutsideWindowFaults : Prop :=
  ∀ (s : State) (op : HostOp) (rest : List Move),
    (∀ off, s.schedule = .host ⟨.offset off, op⟩ :: rest → 0x400 ≤ off → step s = .fault .outsideWindow) ∧
    (∀ addr, s.schedule = .host ⟨.bus addr, op⟩ :: rest →
      (addr < Config.fibcoreBase ∨ Config.fibcoreBase + 0x400 ≤ addr) → step s = .fault .outsideWindow)

/-- R50: an access at bus address FIBCORE_BASE + off reaches window offset off, whatever the base. -/
def Obligations.BusAddressReachesWindow : Prop :=
  ∀ (s : State) (op : HostOp) (off : Nat) (rest : List Move), off < 0x400 →
    step { s with schedule := .host ⟨.bus (Config.fibcoreBase + off), op⟩ :: rest } =
      step { s with schedule := .host ⟨.offset off, op⟩ :: rest }

/-- 10_state.md R35: a write to CTRL, in any phase, sets IE to bit 0 and changes nothing else. -/
def Obligations.CtrlWriteSetsInterruptEnable : Prop :=
  ∀ (s : State) (v : Word) (rest : List Move), s.schedule = hostWrite32 0x004 v :: rest →
    step s = .next { s.served rest .written with ie := v.getLsbD 0 }

/-- R36 and R37: a write to STATUS, in any phase, clears the DONE, ERR and BWE bits written 1 and no others, leaves BUSY
alone, and sets CODE to 0 where bit 2 is 1; nothing else changes. R37 speaks of a write that clears ERR; that CODE also
becomes 0 where ERR was 0 already is the MODEL's choice (log entry 15, DEDUCED). -/
def Obligations.StatusWriteClearsBits : Prop :=
  ∀ (s : State) (v : Word) (rest : List Move), s.schedule = hostWrite32 0x008 v :: rest →
    ∃ t, step s = .next t ∧ t.busy = s.busy ∧
      t.done = (if v.getLsbD 1 then false else s.done) ∧ t.err = (if v.getLsbD 2 then false else s.err) ∧
      t.bwe = (if v.getLsbD 3 then false else s.bwe) ∧ t.code = (if v.getLsbD 2 then 0 else s.code) ∧
      { t with done := s.done, err := s.err, bwe := s.bwe, code := s.code } = s.served rest .written

/-- 60_exceptions.md R228: irq is IE after a commit and after a rejection; an acceptance clears DONE, so that irq is then
IE and ERR; setting IE raises it while DONE or ERR is 1 and clearing IE holds it low without clearing them; a STATUS write
leaves it high only for a bit that was 1 and is not written 1, and writing 6 lowers it. -/
def Obligations.InterruptLineFollowsStatus : Prop :=
  (∀ (s : State) (rest : List Move), s.schedule = .engine :: rest → s.ph = .commit →
    ∃ t, step s = .next t ∧ t.irq = s.ie) ∧
  (∀ (s : State) (v : Word) (rest : List Move), s.schedule = hostWrite32 0x004 v :: rest →
    ∃ t, step s = .next t ∧ t.irq = (v.getLsbD 0 && (s.done || s.err)) ∧ t.done = s.done ∧ t.err = s.err) ∧
  (∀ (s : State) (v : Word) (rest : List Move), s.schedule = hostWrite32 0x010 v :: rest → s.ph = .idle →
    (rejectCause v s ≠ none → ∃ t, step s = .next t ∧ t.irq = s.ie) ∧
    (rejectCause v s = none → ∃ t, step s = .next t ∧ t.done = false ∧ t.irq = (s.ie && s.err))) ∧
  (∀ (s : State) (v : Word) (rest : List Move), s.schedule = hostWrite32 0x008 v :: rest →
    ∃ t, step s = .next t ∧ t.irq = (s.ie && ((s.done && !v.getLsbD 1) || (s.err && !v.getLsbD 2)))) ∧
  (∀ (s : State) (rest : List Move), s.schedule = hostWrite32 0x008 6 :: rest → ∃ t, step s = .next t ∧ t.irq = false)

/-! ### The engine and reset -/

/-- 10_state.md R33: the COMMIT step writes RES to W[RD], sets PH to IDLE and DONE to 1, and changes no other state. -/
def Obligations.CommitStepWritesDestination : Prop :=
  ∀ (s : State) (rest : List Move), s.schedule = .engine :: rest → s.ph = .commit →
    ∃ t, step s = .next t ∧ t.readW s.rd = s.res ∧ (∀ r, r ≠ s.rd → t.readW r = s.readW r) ∧ t.ph = .idle ∧
      t.busy = false ∧ t.done = true ∧ { t with w := s.w, ph := s.ph, done := s.done, schedule := s.schedule } = s

/-- R31 and 60_exceptions.md R238: with PH IDLE the engine takes no step. The second clause is the MODEL's choice (log
entry 1): with no move scheduled, the step is the engine's turn. -/
def Obligations.IdleEngineTakesNoStep : Prop :=
  (∀ (s : State) (rest : List Move), s.schedule = .engine :: rest → s.ph = .idle →
    step s = .next { s with schedule := rest }) ∧
  (∀ s : State, s.schedule = [] → step s = engineTurn s)

/-- 10_state.md R32: a turn given to an engine in LOOP is one iteration of the running command, and leaves everything but
PH, RES, A, B, J and I alone. The pair becomes R161's, R164's or R190's; the last iteration, and it alone, writes RES = B
and enters COMMIT. The two premises keep I + 1 and J - 1 within their registers; no run leaves them. -/
def Obligations.LoopStepIsOneIteration : Prop :=
  ∀ (s : State) (rest : List Move) (e : Engine),
    s.schedule = .engine :: rest → s.ph = .loop → engineOf s.op = some e →
    ∃ t, step s = .next t ∧
      { t with ph := s.ph, res := s.res, a := s.a, b := s.b, j := s.j, i := s.i } = { s with schedule := rest } ∧
      (e.iterative = true → s.i.toNat + 1 < 2 ^ 64 →
        (t.a, t.b) = nextPair e s ∧ t.i.toNat = s.i.toNat + 1 ∧ t.j = s.j ∧
        if s.n.toNat < s.i.toNat + 1 then t.ph = .commit ∧ t.res = t.b else t.ph = .loop ∧ t.res = s.res) ∧
      (e.iterative = false → 1 ≤ s.j.toNat →
        (t.a, t.b) = nextPair e s ∧ t.j.toNat = s.j.toNat - 1 ∧ t.i = s.i ∧
        if s.j.toNat = 1 then t.ph = .commit ∧ t.res = t.b else t.ph = .loop ∧ t.res = s.res)

/-- The MODEL's choice (log entry 7): an engine turn stops exactly in LOOP with OP no engine command's opcode. -/
def Obligations.EngineTurnStopsOnlyWithoutEngine : Prop :=
  ∀ s : State,
    (s.ph = .loop ∧ s.op ∉ engineOpcodes → engineTurn s = .fault .loopWithoutEngine) ∧
    (¬ (s.ph = .loop ∧ s.op ∉ engineOpcodes) → ∃ t, engineTurn s = .next t)

/-- The reset values the spec gives (R22, R25, R34 to R37, R39, 70_reset_and_hazards.md R250). -/
def Obligations.ResetLeavesSpecifiedValues : Prop :=
  (∀ r : Reg, State.reset.readW r = 0) ∧ State.reset.ph = .idle ∧ State.reset.ie = false ∧
  State.reset.done = false ∧ State.reset.err = false ∧ State.reset.bwe = false ∧ State.reset.code = 0 ∧
  State.reset.hostRead 0x000 = 0x46494231#32 ∧ State.reset.hostRead 0x008 = 0 ∧ State.reset.irq = false

/-- R250: a reset from any state, a running command's included, leaves the reset state; the command never commits. -/
def Obligations.ResetAbandonsTheCommand : Prop :=
  ∀ (s : State) (rest : List Move), s.schedule = .reset :: rest →
    ∃ t, step s = .next t ∧ (∀ r, t.readW r = 0) ∧ t.ph = .idle ∧ t.ie = false ∧ t.done = false ∧ t.err = false ∧
      t.bwe = false ∧ t.code = 0 ∧ t.irq = false ∧ t.schedule = rest

/-- The reset state meets the status invariant. -/
def Obligations.StatusInvariantAtReset : Prop := StatusInv State.reset

/-- Every step keeps the status invariant: ERR is 0 exactly when CODE is NONE, CODE is a listed code, and DONE is 0 while
BUSY (R36, R37, R222). -/
def Obligations.StatusInvariantKeptByStep : Prop := ∀ s t : State, StatusInv s → step s = .next t → StatusInv t

/-- The engine's invariant holds at reset. -/
def Obligations.EngineInvariantAtReset : Prop := EngineInv State.reset

/-- Every step keeps the engine's invariant: between LOOP steps (A, B) is (F(m), F(m+1)) at the engine's width, with m
the prefix of N still to extend or I - 2, and a waiting RES is the command's Fibonacci number (R164, R28). -/
def Obligations.EngineInvariantKeptByStep : Prop := ∀ s t : State, EngineInv s → step s = .next t → EngineInv t

/-- R30: the internal latches that a command does not read make no difference a host could see: states that agree on
everything else step alike and agree again. -/
def Obligations.UnreadLatchesAreUnobservable : Prop :=
  ∀ s t : State, SameToHost s t →
    (∀ s', step s = .next s' → ∃ t', step t = .next t' ∧ SameToHost s' t') ∧
    (∀ f, step s = .fault f → step t = .fault f)

/-! ### The primitives -/

/-- SETS (40_assign.md R100): from an IDLE engine, RES is the low limb of W[rs1] sign-extended to 256 bits. -/
def Obligations.SetsSignExtendsTheLowLimb : Prop :=
  ∀ (s : State) (rd rs1 : Reg), s.ph = .idle →
    exec (.sets rd rs1) s = .next { s with
      op := 0x01#8, rd := rd, sa := s.readW rs1, sb := s.readW 0, sd := s.readW rd, done := false, ph := .commit
      res := ((s.readW rs1).extractLsb' 0 128).signExtend 256 }

/-- SETSI (R101): from an IDLE engine, RES is the immediate as a 256-bit two's-complement value; SA and SB take the W
registers that the immediate's bits 19:16 and 15:12 name (20_memory.md R62). -/
def Obligations.SetsiSignExtendsTheImmediate : Prop :=
  ∀ (s : State) (rd : Reg) (imm : Int), s.ph = .idle → (Instr.setsi rd imm).WellFormed →
    exec (.setsi rd imm) s = .next { s with
      op := 0x02#8, rd := rd, sa := s.readW ((BitVec.ofInt 20 imm).extractLsb' 16 4)
      sb := s.readW ((BitVec.ofInt 20 imm).extractLsb' 12 4), sd := s.readW rd, done := false, ph := .commit
      res := BitVec.ofInt 256 imm }

/-- COPY (R102): from an IDLE engine, RES is W[rs1], both limbs. -/
def Obligations.CopyTakesBothLimbs : Prop :=
  ∀ (s : State) (rd rs1 : Reg), s.ph = .idle →
    exec (.copy rd rs1) s = .next { s with
      op := 0x03#8, rd := rd, sa := s.readW rs1, sb := s.readW 0, sd := s.readW rd, done := false, ph := .commit
      res := s.readW rs1 }

/-- ADD (41_addsub.md R120): from an IDLE engine, RES is W[rs1] + W[rs2] mod 2^256. -/
def Obligations.AddIsModular : Prop :=
  ∀ (s : State) (rd rs1 rs2 : Reg), s.ph = .idle →
    exec (.add rd rs1 rs2) s = .next { s with
      op := 0x10#8, rd := rd, sa := s.readW rs1, sb := s.readW rs2, sd := s.readW rd, done := false, ph := .commit
      res := s.readW rs1 + s.readW rs2 }

/-- ADDS (R121): from an IDLE engine, RES is W[rd] plus the low limb of W[rs1], mod 2^256. -/
def Obligations.AddsAddsOneLimb : Prop :=
  ∀ (s : State) (rd rs1 : Reg), s.ph = .idle →
    exec (.adds rd rs1) s = .next { s with
      op := 0x11#8, rd := rd, sa := s.readW rs1, sb := s.readW 0, sd := s.readW rd, done := false, ph := .commit
      res := s.readW rd + ((s.readW rs1).extractLsb' 0 128).setWidth 256 }

/-- SUB (R122): from an IDLE engine, RES is W[rs1] - W[rs2] mod 2^256. -/
def Obligations.SubIsModular : Prop :=
  ∀ (s : State) (rd rs1 rs2 : Reg), s.ph = .idle →
    exec (.sub rd rs1 rs2) s = .next { s with
      op := 0x12#8, rd := rd, sa := s.readW rs1, sb := s.readW rs2, sd := s.readW rd, done := false, ph := .commit
      res := s.readW rs1 - s.readW rs2 }

/-- MUL (42_multiply.md R140): from an IDLE engine, RES is the exact product of the low limbs. -/
def Obligations.MulIsExactOnLowLimbs : Prop :=
  ∀ (s : State) (rd rs1 rs2 : Reg), s.ph = .idle →
    exec (.mul rd rs1 rs2) s = .next { s with
      op := 0x20#8, rd := rd, sa := s.readW rs1, sb := s.readW rs2, sd := s.readW rd, done := false, ph := .commit
      res := BitVec.ofNat 256 (((s.readW rs1).extractLsb' 0 128).toNat * ((s.readW rs2).extractLsb' 0 128).toNat) }

/-- MULW (R141): from an IDLE engine, RES is W[rs1] * W[rs2] mod 2^256. -/
def Obligations.MulwIsModular : Prop :=
  ∀ (s : State) (rd rs1 rs2 : Reg), s.ph = .idle →
    exec (.mulw rd rs1 rs2) s = .next { s with
      op := 0x21#8, rd := rd, sa := s.readW rs1, sb := s.readW rs2, sd := s.readW rd, done := false, ph := .commit
      res := s.readW rs1 * s.readW rs2 }

/-- 40_assign.md R103: a primitive, accepted by an IDLE engine, has its whole result waiting and makes exactly one engine
step, the commit of that result to its destination; BUSY is 1 until then, and the rest of what a host sees stays as it
was before the command. -/
def Obligations.PrimitivesCommitInOneEngineStep : Prop :=
  ∀ (i : Instr) (s : State), i.indexReg = none → s.ph = .idle →
    ∃ t, exec i s = .next t ∧ t.ph = .commit ∧ t.rd = i.dest ∧ AcceptedFrom s t ∧ RunsTo 0 i.dest t.res t

/-! ### The engine commands -/

/-- Acceptance of FIBS128 and FIBI256 (43_fib128.md R161, 44_fib256.md R190): from an IDLE engine and an index K ≥ 0, the
result K at once when K < 2, else the loop from A = 0, B = 1, I = 2, N = K. -/
def Obligations.IterativeEnginesStart : Prop :=
  ∀ (s : State) (rd rs1 : Reg) (k : BitVec 64), s.ph = .idle → k = (s.readW rs1).extractLsb' 0 64 → 0 ≤ k.toInt →
    (k.toNat < 2 →
      exec (.fibs128 rd rs1) s = .next { s.acceptedEngine 0x30#8 rd rs1 with res := k.setWidth 256, ph := .commit } ∧
      exec (.fibi256 rd rs1) s = .next { s.acceptedEngine 0x38#8 rd rs1 with res := k.setWidth 256, ph := .commit }) ∧
    (2 ≤ k.toNat →
      exec (.fibs128 rd rs1) s =
        .next { s.acceptedEngine 0x30#8 rd rs1 with n := k, a := 0, b := 1, i := 2, ph := .loop } ∧
      exec (.fibi256 rd rs1) s =
        .next { s.acceptedEngine 0x38#8 rd rs1 with n := k, a := 0, b := 1, i := 2, ph := .loop })

/-- Acceptance of the doubling engines (R163): from an IDLE engine and an index K ≥ 0, the result K at once when K < 2; the
result 1 at once when K = 2; else the loop from (A, B) = (1, 1) with N = K - 1 and J = msb_index(N). -/
def Obligations.DoublingEnginesStart : Prop :=
  ∀ (s : State) (rd rs1 : Reg) (k : BitVec 64), s.ph = .idle → k = (s.readW rs1).extractLsb' 0 64 → 0 ≤ k.toInt →
    ∀ p ∈ [(Instr.fibd128 rd rs1, 0x31#8), (.fibc128 rd rs1, 0x32#8), (.fibc256 rd rs1, 0x39#8),
        (.fibc256w rd rs1, 0x3A#8)],
      (k.toNat < 2 → exec p.1 s = .next { s.acceptedEngine p.2 rd rs1 with res := k.setWidth 256, ph := .commit }) ∧
      (k.toNat = 2 →
        exec p.1 s = .next { s.acceptedEngine p.2 rd rs1 with n := 1, j := 0, a := 1, b := 1, res := 1, ph := .commit }) ∧
      (3 ≤ k.toNat →
        exec p.1 s = .next { s.acceptedEngine p.2 rd rs1 with
          n := k - 1, j := BitVec.ofNat 7 (k.toNat - 1).log2, a := 1, b := 1, ph := .loop })

/-- 60_exceptions.md R223: each engine command with a negative index is rejected with NEG_INDEX: ERR and CODE are written,
and nothing else changes. -/
def Obligations.NegativeIndexIsRejected : Prop :=
  ∀ (s : State) (rd rs1 : Reg), s.ph = .idle → ((s.readW rs1).extractLsb' 0 64).toInt < 0 →
    ∀ i ∈ [Instr.fibs128 rd rs1, .fibd128 rd rs1, .fibc128 rd rs1, .fibi256 rd rs1, .fibc256 rd rs1, .fibc256w rd rs1],
      exec i s = .next { s with err := true, code := 3 }

/-- R168: for every index K ≥ 0, FIBS128, FIBD128 and FIBC128 commit F(K) mod 2^128 in the low limb and 0 in the high
limb, after the LOOP steps of 70_reset_and_hazards.md R260. -/
def Obligations.Engines128GiveFibonacci : Prop :=
  ∀ (s : State) (rd rs1 : Reg) (k : Nat), s.ph = .idle →
    0 ≤ ((s.readW rs1).extractLsb' 0 64).toInt → k = ((s.readW rs1).extractLsb' 0 64).toNat →
    (∃ t, exec (.fibs128 rd rs1) s = .next t ∧ AcceptedFrom s t ∧ RunsTo (iterativeSteps k) rd (fib128 k) t) ∧
    (∃ t, exec (.fibd128 rd rs1) s = .next t ∧ AcceptedFrom s t ∧ RunsTo (doublingSteps k) rd (fib128 k) t) ∧
    (∃ t, exec (.fibc128 rd rs1) s = .next t ∧ AcceptedFrom s t ∧ RunsTo (doublingSteps k) rd (fib128 k) t)

/-- R197: for every index K ≥ 0, FIBC256W commits F(K) mod 2^256, the same as FIBI256 (R195), after the LOOP steps of
R260. -/
def Obligations.FullWidthEnginesGiveFibonacci : Prop :=
  ∀ (s : State) (rd rs1 : Reg) (k : Nat), s.ph = .idle →
    0 ≤ ((s.readW rs1).extractLsb' 0 64).toInt → k = ((s.readW rs1).extractLsb' 0 64).toNat →
    (∃ t, exec (.fibi256 rd rs1) s = .next t ∧ AcceptedFrom s t ∧ RunsTo (iterativeSteps k) rd (fib256 k) t) ∧
    (∃ t, exec (.fibc256w rd rs1) s = .next t ∧ AcceptedFrom s t ∧ RunsTo (doublingSteps k) rd (fib256 k) t)

/-- R193, R196, R198: FIBC256 commits a value whose low limb is F(K) mod 2^128 for every K; the whole value is F(K) mod
2^256 for K ≤ 371 and differs from it for K from 372 to 1199. -/
def Obligations.LowLimbEngineDomain : Prop :=
  ∀ (s : State) (rd rs1 : Reg) (k : Nat), s.ph = .idle →
    0 ≤ ((s.readW rs1).extractLsb' 0 64).toInt → k = ((s.readW rs1).extractLsb' 0 64).toNat →
    ∃ t v, exec (.fibc256 rd rs1) s = .next t ∧ AcceptedFrom s t ∧ RunsTo (doublingSteps k) rd v t ∧
      v.extractLsb' 0 128 = fibLimb k ∧ (k ≤ 371 → v = fib256 k) ∧ (372 ≤ k → k ≤ 1199 → v ≠ fib256 k)

/-- R169, R195, R196 and 70_reset_and_hazards.md R259: where the engines' results are exact: the register holds F(K)
itself exactly for K ≤ 186 (FIBS128, FIBD128, FIBC128) and K ≤ 370 (FIBI256, FIBC256, FIBC256W). -/
def Obligations.ExactDomainsOfTheEngines : Prop :=
  ∀ (s : State) (rd rs1 : Reg) (k : Nat), s.ph = .idle →
    0 ≤ ((s.readW rs1).extractLsb' 0 64).toInt → k = ((s.readW rs1).extractLsb' 0 64).toNat →
    ∀ p ∈ [(Instr.fibs128 rd rs1, iterativeSteps k, 186), (.fibd128 rd rs1, doublingSteps k, 186),
        (.fibc128 rd rs1, doublingSteps k, 186), (.fibi256 rd rs1, iterativeSteps k, 370),
        (.fibc256 rd rs1, doublingSteps k, 370), (.fibc256w rd rs1, doublingSteps k, 370)],
      ∃ t u, exec p.1 s = .next t ∧ AcceptedFrom s t ∧ engineRun (p.2.1 + 1) t = .next u ∧ u.ph = .idle ∧
        ((u.readW rd).toNat = Nat.fib k ↔ k ≤ p.2.2)

/-- R166 and R167: what FIBD128 commits, on the doubling engine, is the result of the source's recursion. -/
def Obligations.Fibd128EqualsTheRecursion : Prop :=
  ∀ (s : State) (rd rs1 : Reg) (k : BitVec 64), s.ph = .idle → k = (s.readW rs1).extractLsb' 0 64 → 0 ≤ k.toInt →
    ∃ t, exec (.fibd128 rd rs1) s = .next t ∧ AcceptedFrom s t ∧
      RunsTo (doublingSteps k.toNat) rd (if k.toNat < 2 then k.setWidth 256 else (drec 64 (k - 1)).2.setWidth 256) t

/-- R170 and R199: an engine command's result, and its number of LOOP steps, depend only on K: not on the registers, nor
on anything a command left behind. -/
def Obligations.EngineResultDependsOnIndexOnly : Prop :=
  ∀ mk ∈ [Instr.fibs128, .fibd128, .fibc128, .fibi256, .fibc256, .fibc256w],
    ∀ (s s' : State) (rd rs1 rd' rs1' : Reg), s.ph = .idle → s'.ph = .idle →
      (s.readW rs1).extractLsb' 0 64 = (s'.readW rs1').extractLsb' 0 64 →
      0 ≤ ((s.readW rs1).extractLsb' 0 64).toInt →
      ∃ steps v t t', exec (mk rd rs1) s = .next t ∧ exec (mk rd' rs1') s' = .next t' ∧
        AcceptedFrom s t ∧ AcceptedFrom s' t' ∧ RunsTo steps rd v t ∧ RunsTo steps rd' v t'

/-! ### The datapath -/

/-- R122: the subtractor's two forms, x + (~y + 1) and the borrow chain, give the same result for every x and y. -/
def Obligations.SubtractFormsAgree : Prop := ∀ x y : U256, subU256 x y = subBorrowChain x y

/-- R123: the adder, the scalar adder and the subtractor are arithmetic mod 2^256 and follow the three laws; read as
two's-complement integers, sums and differences are the wrapped signed ones. -/
def Obligations.AddSubLaws : Prop :=
  ∀ (x y : U256) (l : Limb),
    (addU256 x y).toNat = (x.toNat + y.toNat) % 2 ^ 256 ∧
    (addScalar x l).toNat = (x.toNat + l.toNat) % 2 ^ 256 ∧
    ((subU256 x y).toNat : Int) = ((x.toNat : Int) - y.toNat) % 2 ^ 256 ∧
    addU256 x y = addU256 y x ∧ subU256 (addU256 x y) y = x ∧ addU256 (subU256 x y) y = x ∧
    (addU256 x y).toInt = (x.toInt + y.toInt).bmod (2 ^ 256) ∧ (subU256 x y).toInt = (x.toInt - y.toInt).bmod (2 ^ 256)

/-- R142: the multiplier's laws. -/
def Obligations.MultiplyLaws : Prop :=
  ∀ (x y : U256),
    mul128 (lo x) (lo y) = mul128 (lo y) (lo x) ∧
    (mul128 (lo x) (lo y)).toNat = (lo x).toNat * (lo y).toNat ∧
    mulWide x y = mulWide y x ∧
    (mulWide x y).toNat = (x.toNat * y.toNat) % 2 ^ 256 ∧
    (hi x = 0 → hi y = 0 → mulWide x y = mul128 (lo x) (lo y))

/-- R162 and R191: a doubling step takes the pair (F(m), F(m+1)) to the pair for 2m + bit: at 128 bits, and at 256 bits
with full-width products. -/
def Obligations.DoublingStepAdvancesThePair : Prop :=
  ∀ (m : Nat) (bit : Bool),
    dstep128 (fibLimb m) (fibLimb (m + 1)) bit = (fibLimb (2 * m + bit.toNat), fibLimb (2 * m + bit.toNat + 1)) ∧
    dstep256Full (fib256 m) (fib256 (m + 1)) bit = (fib256 (2 * m + bit.toNat), fib256 (2 * m + bit.toNat + 1))

/-! ### The assembler -/

/-- R90: what the assembler accepts is well formed. -/
def Obligations.AssembledCommandsAreWellFormed : Prop :=
  ∀ (line : List Char) (i : Instr), assemble line = .command i → i.WellFormed

/-- R90: SETSI, and LI (R91), with a decimal or a `0x` hexadecimal numeral: a numeral outside -524288 to 524287 is refused,
and one inside is the integer that the command carries, never truncated. -/
def Obligations.AssembledImmediateIsTheNumeral : Prop :=
  ∀ (rd : Reg) (n : Nat), ∀ m ∈ ["SETSI w", "LI w"],
    ∀ digits ∈ [Nat.toDigits 10 n, '0' :: 'x' :: Nat.toDigits 16 n],
      assemble (m.toList ++ Nat.toDigits 10 rd.toNat ++ ", ".toList ++ digits) =
        (if n ≤ 524287 then .command (.setsi rd (n : Int)) else .refused) ∧
      assemble (m.toList ++ Nat.toDigits 10 rd.toNat ++ ", -".toList ++ digits) =
        (if n ≤ 524288 then .command (.setsi rd (-(n : Int))) else .refused)

/-- R89 and R91: example lines, and each pseudo-instruction's expansion to one command. -/
def Obligations.AssemblerExamples : Prop :=
  assemble "SETSI w1, -1".toList = .command (.setsi 1 (-1)) ∧
  assemble "add w3, w1, w2 ; a comment".toList = .command (.add 3 1 2) ∧
  assemble "FIBC256W w0, w15".toList = .command (.fibc256w 0 15) ∧
  assemble "SETSI w1, 524288".toList = .refused ∧
  assemble "LI w1, 0x64".toList = .command (.setsi 1 100) ∧
  assemble "CLR w4".toList = .command (.setsi 4 0) ∧
  assemble "MOV w4, w3".toList = .command (.copy 4 3) ∧
  assemble "DBL w5, w4".toList = .command (.add 5 4 4) ∧
  assemble "SQR w6, w1".toList = .command (.mul 6 1 1)
end

