-- ==== Sys2Proof/Laws/Arith.lean ====
section
/-! SUPPORT. The value of each datapath operation as a natural number, from its limbs. -/

namespace Sys2Proof.Machine

theorem toNat_lo (v : U256) : (lo v).toNat = v.toNat % 2 ^ 128 := by simp [lo, BitVec.extractLsb'_toNat]

theorem toNat_hi (v : U256) : (hi v).toNat = v.toNat / 2 ^ 128 := by
  have := v.isLt
  simp [hi, BitVec.extractLsb'_toNat, Nat.shiftRight_eq_div_pow]
  omega

theorem toNat_loHalf (x : Limb) : (loHalf x).toNat = x.toNat % 2 ^ 64 := by simp [loHalf, BitVec.extractLsb'_toNat]

theorem toNat_hiHalf (x : Limb) : (hiHalf x).toNat = x.toNat / 2 ^ 64 := by
  have := x.isLt
  simp [hiHalf, BitVec.extractLsb'_toNat, Nat.shiftRight_eq_div_pow]
  omega

theorem toNat_u256 (h l : Limb) : (u256 h l).toNat = h.toNat * 2 ^ 128 + l.toNat := by
  simp only [u256, BitVec.toNat_append]
  rw [← Nat.shiftLeft_add_eq_or_of_lt l.isLt, Nat.shiftLeft_eq]

@[simp] theorem lo_u256 (h l : Limb) : lo (u256 h l) = l := by
  have := l.isLt
  apply BitVec.eq_of_toNat_eq
  rw [toNat_lo, toNat_u256]
  omega

@[simp] theorem hi_u256 (h l : Limb) : hi (u256 h l) = h := by
  have := l.isLt
  apply BitVec.eq_of_toNat_eq
  rw [toNat_hi, toNat_u256]
  omega

/-- A U256 is its two limbs (R8). -/
@[simp] theorem u256_hi_lo (v : U256) : u256 (hi v) (lo v) = v := by
  apply BitVec.eq_of_toNat_eq
  rw [toNat_u256, toNat_hi, toNat_lo]
  omega

theorem toNat_bitLimb (c : Bool) : (bitLimb c).toNat = c.toNat := by cases c <;> rfl

theorem toNat_carryOut (l y : Limb) : (carryOut l y).toNat = if l.toNat < y.toNat then 1 else 0 := by
  simp only [carryOut, toNat_bitLimb, BitVec.ult]
  split <;> simp_all

theorem toNat_borrowOut (x y : Limb) : (borrowOut x y).toNat = if x.toNat < y.toNat then 1 else 0 :=
  toNat_carryOut x y

theorem toNat_carry129 (v : BitVec 129) : (carry129 v).toNat = v.toNat / 2 ^ 128 := by
  have := v.isLt
  simp only [carry129, toNat_bitLimb]
  cases hm : v.msb <;> rw [BitVec.msb_eq_decide] at hm <;> simp at hm ⊢ <;> omega

theorem toNat_mulHalf (p q : HalfLimb) : (mulHalf p q).toNat = p.toNat * q.toNat := by
  have hp := p.isLt
  have hq := q.isLt
  have hpq : p.toNat * q.toNat ≤ (2 ^ 64 - 1) * (2 ^ 64 - 1) := Nat.mul_le_mul (by omega) (by omega)
  simp only [mulHalf, BitVec.toNat_mul, BitVec.toNat_setWidth]
  rw [Nat.mod_eq_of_lt (show p.toNat < 2 ^ 128 by omega), Nat.mod_eq_of_lt (show q.toNat < 2 ^ 128 by omega)]
  exact Nat.mod_eq_of_lt (by omega)

theorem toNat_shifted129 (p : Limb) : (shifted129 p).toNat = p.toNat % 2 ^ 64 * 2 ^ 64 := by
  simp only [shifted129, BitVec.toNat_shiftLeft, BitVec.toNat_setWidth, toNat_loHalf, Nat.shiftLeft_eq]
  omega

/-- The limb adder's value, before any claim about it: the two limbs with the carry between them. -/
theorem toNat_addU256 (x y : U256) : (addU256 x y).toNat = (x.toNat + y.toNat) % 2 ^ 256 := by
  have := x.isLt
  have := y.isLt
  simp only [addU256, toNat_u256, BitVec.toNat_add, toNat_hi, toNat_carryOut, toNat_lo]
  split <;> omega

/-- The scalar adder's value. -/
theorem toNat_addScalar (x : U256) (y : Limb) : (addScalar x y).toNat = (x.toNat + y.toNat) % 2 ^ 256 := by
  have := x.isLt
  have := y.isLt
  simp only [addScalar, toNat_u256, BitVec.toNat_add, toNat_hi, toNat_carryOut, toNat_lo]
  split <;> omega

end Sys2Proof.Machine
end

