-- ==== Sys2Proof/Laws/Encoding.lean ====
section
/-! SUPPORT. Command words as numbers: each field's weight (spec 30_encoding.md R81, R82). -/

namespace Sys2Proof

theorem toNat_append_mul {n m : Nat} (x : BitVec n) (y : BitVec m) : (x ++ y).toNat = x.toNat * 2 ^ m + y.toNat := by
  rw [BitVec.toNat_append, ← Nat.shiftLeft_add_eq_or_of_lt y.isLt, Nat.shiftLeft_eq]

theorem toNat_encodeR3 (opc : Opcode) (rd rs1 rs2 : Reg) :
    (encodeR3 opc rd rs1 rs2).toNat =
      opc.toNat * 2 ^ 24 + rd.toNat * 2 ^ 20 + rs1.toNat * 2 ^ 16 + rs2.toNat * 2 ^ 12 := by
  refine Eq.trans (toNat_append_mul (opc ++ rd ++ rs1 ++ rs2) 0#12) ?_
  simp only [toNat_append_mul]
  simp
  omega

theorem toNat_encodeR2 (opc : Opcode) (rd rs1 : Reg) :
    (encodeR2 opc rd rs1).toNat = opc.toNat * 2 ^ 24 + rd.toNat * 2 ^ 20 + rs1.toNat * 2 ^ 16 := by
  refine Eq.trans (toNat_append_mul (opc ++ rd ++ rs1) 0#16) ?_
  simp only [toNat_append_mul]
  simp
  omega

theorem toNat_encodeI20 (opc : Opcode) (rd : Reg) (imm : Int) :
    (encodeI20 opc rd imm).toNat = opc.toNat * 2 ^ 24 + rd.toNat * 2 ^ 20 + (BitVec.ofInt 20 imm).toNat := by
  refine Eq.trans (toNat_append_mul (opc ++ rd) (BitVec.ofInt 20 imm)) ?_
  simp only [toNat_append_mul]
  omega

/-- A field of a command word as a number. -/
theorem toNat_field (v : Word) (start len : Nat) : (v.extractLsb' start len).toNat = v.toNat / 2 ^ start % 2 ^ len := by
  simp [BitVec.extractLsb'_toNat, Nat.shiftRight_eq_div_pow]

end Sys2Proof
end

