-- ==== Sys2Proof/Laws/State.lean ====
section
/-! SUPPORT. One lemma per field per update of State, so that no proof unfolds a record update; and reading a W register
after each update. -/

namespace Sys2Proof.Machine

section Fields

variable (s : State)

@[simp] theorem writeW_w (r : Reg) (v : U256) : (s.writeW r v).w = s.w.set r.toNat v r.isLt := rfl
@[simp] theorem writeW_ph (r : Reg) (v : U256) : (s.writeW r v).ph = s.ph := rfl
@[simp] theorem writeW_op (r : Reg) (v : U256) : (s.writeW r v).op = s.op := rfl
@[simp] theorem writeW_rd (r : Reg) (v : U256) : (s.writeW r v).rd = s.rd := rfl
@[simp] theorem writeW_sa (r : Reg) (v : U256) : (s.writeW r v).sa = s.sa := rfl
@[simp] theorem writeW_sb (r : Reg) (v : U256) : (s.writeW r v).sb = s.sb := rfl
@[simp] theorem writeW_sd (r : Reg) (v : U256) : (s.writeW r v).sd = s.sd := rfl
@[simp] theorem writeW_k (r : Reg) (v : U256) : (s.writeW r v).k = s.k := rfl
@[simp] theorem writeW_res (r : Reg) (v : U256) : (s.writeW r v).res = s.res := rfl
@[simp] theorem writeW_a (r : Reg) (v : U256) : (s.writeW r v).a = s.a := rfl
@[simp] theorem writeW_b (r : Reg) (v : U256) : (s.writeW r v).b = s.b := rfl
@[simp] theorem writeW_n (r : Reg) (v : U256) : (s.writeW r v).n = s.n := rfl
@[simp] theorem writeW_j (r : Reg) (v : U256) : (s.writeW r v).j = s.j := rfl
@[simp] theorem writeW_i (r : Reg) (v : U256) : (s.writeW r v).i = s.i := rfl
@[simp] theorem writeW_ie (r : Reg) (v : U256) : (s.writeW r v).ie = s.ie := rfl
@[simp] theorem writeW_done (r : Reg) (v : U256) : (s.writeW r v).done = s.done := rfl
@[simp] theorem writeW_err (r : Reg) (v : U256) : (s.writeW r v).err = s.err := rfl
@[simp] theorem writeW_bwe (r : Reg) (v : U256) : (s.writeW r v).bwe = s.bwe := rfl
@[simp] theorem writeW_code (r : Reg) (v : U256) : (s.writeW r v).code = s.code := rfl
@[simp] theorem writeW_schedule (r : Reg) (v : U256) : (s.writeW r v).schedule = s.schedule := rfl
@[simp] theorem writeW_resp (r : Reg) (v : U256) : (s.writeW r v).resp = s.resp := rfl

@[simp] theorem reject_w (c : RejectCode) : (s.reject c).w = s.w := rfl
@[simp] theorem reject_ph (c : RejectCode) : (s.reject c).ph = s.ph := rfl
@[simp] theorem reject_op (c : RejectCode) : (s.reject c).op = s.op := rfl
@[simp] theorem reject_rd (c : RejectCode) : (s.reject c).rd = s.rd := rfl
@[simp] theorem reject_sa (c : RejectCode) : (s.reject c).sa = s.sa := rfl
@[simp] theorem reject_sb (c : RejectCode) : (s.reject c).sb = s.sb := rfl
@[simp] theorem reject_sd (c : RejectCode) : (s.reject c).sd = s.sd := rfl
@[simp] theorem reject_k (c : RejectCode) : (s.reject c).k = s.k := rfl
@[simp] theorem reject_res (c : RejectCode) : (s.reject c).res = s.res := rfl
@[simp] theorem reject_a (c : RejectCode) : (s.reject c).a = s.a := rfl
@[simp] theorem reject_b (c : RejectCode) : (s.reject c).b = s.b := rfl
@[simp] theorem reject_n (c : RejectCode) : (s.reject c).n = s.n := rfl
@[simp] theorem reject_j (c : RejectCode) : (s.reject c).j = s.j := rfl
@[simp] theorem reject_i (c : RejectCode) : (s.reject c).i = s.i := rfl
@[simp] theorem reject_ie (c : RejectCode) : (s.reject c).ie = s.ie := rfl
@[simp] theorem reject_done (c : RejectCode) : (s.reject c).done = s.done := rfl
@[simp] theorem reject_err (c : RejectCode) : (s.reject c).err = true := rfl
@[simp] theorem reject_bwe (c : RejectCode) : (s.reject c).bwe = s.bwe := rfl
@[simp] theorem reject_code (c : RejectCode) : (s.reject c).code = rejectBits c := rfl
@[simp] theorem reject_schedule (c : RejectCode) : (s.reject c).schedule = s.schedule := rfl
@[simp] theorem reject_resp (c : RejectCode) : (s.reject c).resp = s.resp := rfl
@[simp] theorem readW_reject (c : RejectCode) (x : Reg) : (s.reject c).readW x = s.readW x := rfl

@[simp] theorem writeStatus_w (v : Word) : (s.writeStatus v).w = s.w := rfl
@[simp] theorem writeStatus_ph (v : Word) : (s.writeStatus v).ph = s.ph := rfl
@[simp] theorem writeStatus_op (v : Word) : (s.writeStatus v).op = s.op := rfl
@[simp] theorem writeStatus_rd (v : Word) : (s.writeStatus v).rd = s.rd := rfl
@[simp] theorem writeStatus_sa (v : Word) : (s.writeStatus v).sa = s.sa := rfl
@[simp] theorem writeStatus_sb (v : Word) : (s.writeStatus v).sb = s.sb := rfl
@[simp] theorem writeStatus_sd (v : Word) : (s.writeStatus v).sd = s.sd := rfl
@[simp] theorem writeStatus_k (v : Word) : (s.writeStatus v).k = s.k := rfl
@[simp] theorem writeStatus_res (v : Word) : (s.writeStatus v).res = s.res := rfl
@[simp] theorem writeStatus_a (v : Word) : (s.writeStatus v).a = s.a := rfl
@[simp] theorem writeStatus_b (v : Word) : (s.writeStatus v).b = s.b := rfl
@[simp] theorem writeStatus_n (v : Word) : (s.writeStatus v).n = s.n := rfl
@[simp] theorem writeStatus_j (v : Word) : (s.writeStatus v).j = s.j := rfl
@[simp] theorem writeStatus_i (v : Word) : (s.writeStatus v).i = s.i := rfl
@[simp] theorem writeStatus_ie (v : Word) : (s.writeStatus v).ie = s.ie := rfl
@[simp] theorem writeStatus_done (v : Word) : (s.writeStatus v).done = (s.done && !v.getLsbD 1) := rfl
@[simp] theorem writeStatus_err (v : Word) : (s.writeStatus v).err = (s.err && !v.getLsbD 2) := rfl
@[simp] theorem writeStatus_bwe (v : Word) : (s.writeStatus v).bwe = (s.bwe && !v.getLsbD 3) := rfl
@[simp] theorem writeStatus_code (v : Word) : (s.writeStatus v).code = if v.getLsbD 2 then 0 else s.code := rfl
@[simp] theorem writeStatus_schedule (v : Word) : (s.writeStatus v).schedule = s.schedule := rfl
@[simp] theorem writeStatus_resp (v : Word) : (s.writeStatus v).resp = s.resp := rfl
@[simp] theorem readW_writeStatus (v : Word) (x : Reg) : (s.writeStatus v).readW x = s.readW x := rfl

@[simp] theorem writeCtrl_w (v : Word) : (s.writeCtrl v).w = s.w := rfl
@[simp] theorem writeCtrl_ph (v : Word) : (s.writeCtrl v).ph = s.ph := rfl
@[simp] theorem writeCtrl_op (v : Word) : (s.writeCtrl v).op = s.op := rfl
@[simp] theorem writeCtrl_rd (v : Word) : (s.writeCtrl v).rd = s.rd := rfl
@[simp] theorem writeCtrl_sa (v : Word) : (s.writeCtrl v).sa = s.sa := rfl
@[simp] theorem writeCtrl_sb (v : Word) : (s.writeCtrl v).sb = s.sb := rfl
@[simp] theorem writeCtrl_sd (v : Word) : (s.writeCtrl v).sd = s.sd := rfl
@[simp] theorem writeCtrl_k (v : Word) : (s.writeCtrl v).k = s.k := rfl
@[simp] theorem writeCtrl_res (v : Word) : (s.writeCtrl v).res = s.res := rfl
@[simp] theorem writeCtrl_a (v : Word) : (s.writeCtrl v).a = s.a := rfl
@[simp] theorem writeCtrl_b (v : Word) : (s.writeCtrl v).b = s.b := rfl
@[simp] theorem writeCtrl_n (v : Word) : (s.writeCtrl v).n = s.n := rfl
@[simp] theorem writeCtrl_j (v : Word) : (s.writeCtrl v).j = s.j := rfl
@[simp] theorem writeCtrl_i (v : Word) : (s.writeCtrl v).i = s.i := rfl
@[simp] theorem writeCtrl_ie (v : Word) : (s.writeCtrl v).ie = v.getLsbD 0 := rfl
@[simp] theorem writeCtrl_done (v : Word) : (s.writeCtrl v).done = s.done := rfl
@[simp] theorem writeCtrl_err (v : Word) : (s.writeCtrl v).err = s.err := rfl
@[simp] theorem writeCtrl_bwe (v : Word) : (s.writeCtrl v).bwe = s.bwe := rfl
@[simp] theorem writeCtrl_code (v : Word) : (s.writeCtrl v).code = s.code := rfl
@[simp] theorem writeCtrl_schedule (v : Word) : (s.writeCtrl v).schedule = s.schedule := rfl
@[simp] theorem writeCtrl_resp (v : Word) : (s.writeCtrl v).resp = s.resp := rfl
@[simp] theorem readW_writeCtrl (v : Word) (x : Reg) : (s.writeCtrl v).readW x = s.readW x := rfl

@[simp] theorem discard_w : (s.discard).w = s.w := rfl
@[simp] theorem discard_ph : (s.discard).ph = s.ph := rfl
@[simp] theorem discard_op : (s.discard).op = s.op := rfl
@[simp] theorem discard_rd : (s.discard).rd = s.rd := rfl
@[simp] theorem discard_sa : (s.discard).sa = s.sa := rfl
@[simp] theorem discard_sb : (s.discard).sb = s.sb := rfl
@[simp] theorem discard_sd : (s.discard).sd = s.sd := rfl
@[simp] theorem discard_k : (s.discard).k = s.k := rfl
@[simp] theorem discard_res : (s.discard).res = s.res := rfl
@[simp] theorem discard_a : (s.discard).a = s.a := rfl
@[simp] theorem discard_b : (s.discard).b = s.b := rfl
@[simp] theorem discard_n : (s.discard).n = s.n := rfl
@[simp] theorem discard_j : (s.discard).j = s.j := rfl
@[simp] theorem discard_i : (s.discard).i = s.i := rfl
@[simp] theorem discard_ie : (s.discard).ie = s.ie := rfl
@[simp] theorem discard_done : (s.discard).done = s.done := rfl
@[simp] theorem discard_err : (s.discard).err = s.err := rfl
@[simp] theorem discard_bwe : (s.discard).bwe = true := rfl
@[simp] theorem discard_code : (s.discard).code = s.code := rfl
@[simp] theorem discard_schedule : (s.discard).schedule = s.schedule := rfl
@[simp] theorem discard_resp : (s.discard).resp = s.resp := rfl
@[simp] theorem readW_discard (x : Reg) : (s.discard).readW x = s.readW x := rfl

@[simp] theorem latch_w (op : Opcode) (rd rs1 rs2 : Reg) : (s.latch op rd rs1 rs2).w = s.w := rfl
@[simp] theorem latch_ph (op : Opcode) (rd rs1 rs2 : Reg) : (s.latch op rd rs1 rs2).ph = s.ph := rfl
@[simp] theorem latch_op (op : Opcode) (rd rs1 rs2 : Reg) : (s.latch op rd rs1 rs2).op = op := rfl
@[simp] theorem latch_rd (op : Opcode) (rd rs1 rs2 : Reg) : (s.latch op rd rs1 rs2).rd = rd := rfl
@[simp] theorem latch_sa (op : Opcode) (rd rs1 rs2 : Reg) : (s.latch op rd rs1 rs2).sa = s.readW rs1 := rfl
@[simp] theorem latch_sb (op : Opcode) (rd rs1 rs2 : Reg) : (s.latch op rd rs1 rs2).sb = s.readW rs2 := rfl
@[simp] theorem latch_sd (op : Opcode) (rd rs1 rs2 : Reg) : (s.latch op rd rs1 rs2).sd = s.readW rd := rfl
@[simp] theorem latch_k (op : Opcode) (rd rs1 rs2 : Reg) : (s.latch op rd rs1 rs2).k = s.k := rfl
@[simp] theorem latch_res (op : Opcode) (rd rs1 rs2 : Reg) : (s.latch op rd rs1 rs2).res = s.res := rfl
@[simp] theorem latch_a (op : Opcode) (rd rs1 rs2 : Reg) : (s.latch op rd rs1 rs2).a = s.a := rfl
@[simp] theorem latch_b (op : Opcode) (rd rs1 rs2 : Reg) : (s.latch op rd rs1 rs2).b = s.b := rfl
@[simp] theorem latch_n (op : Opcode) (rd rs1 rs2 : Reg) : (s.latch op rd rs1 rs2).n = s.n := rfl
@[simp] theorem latch_j (op : Opcode) (rd rs1 rs2 : Reg) : (s.latch op rd rs1 rs2).j = s.j := rfl
@[simp] theorem latch_i (op : Opcode) (rd rs1 rs2 : Reg) : (s.latch op rd rs1 rs2).i = s.i := rfl
@[simp] theorem latch_ie (op : Opcode) (rd rs1 rs2 : Reg) : (s.latch op rd rs1 rs2).ie = s.ie := rfl
@[simp] theorem latch_done (op : Opcode) (rd rs1 rs2 : Reg) : (s.latch op rd rs1 rs2).done = false := rfl
@[simp] theorem latch_err (op : Opcode) (rd rs1 rs2 : Reg) : (s.latch op rd rs1 rs2).err = s.err := rfl
@[simp] theorem latch_bwe (op : Opcode) (rd rs1 rs2 : Reg) : (s.latch op rd rs1 rs2).bwe = s.bwe := rfl
@[simp] theorem latch_code (op : Opcode) (rd rs1 rs2 : Reg) : (s.latch op rd rs1 rs2).code = s.code := rfl
@[simp] theorem latch_schedule (op : Opcode) (rd rs1 rs2 : Reg) : (s.latch op rd rs1 rs2).schedule = s.schedule := rfl
@[simp] theorem latch_resp (op : Opcode) (rd rs1 rs2 : Reg) : (s.latch op rd rs1 rs2).resp = s.resp := rfl
@[simp] theorem readW_latch (op : Opcode) (rd rs1 rs2 : Reg) (x : Reg) : (s.latch op rd rs1 rs2).readW x = s.readW x := rfl

@[simp] theorem startPrimitive_w (r : U256) : (s.startPrimitive r).w = s.w := rfl
@[simp] theorem startPrimitive_ph (r : U256) : (s.startPrimitive r).ph = .commit := rfl
@[simp] theorem startPrimitive_op (r : U256) : (s.startPrimitive r).op = s.op := rfl
@[simp] theorem startPrimitive_rd (r : U256) : (s.startPrimitive r).rd = s.rd := rfl
@[simp] theorem startPrimitive_sa (r : U256) : (s.startPrimitive r).sa = s.sa := rfl
@[simp] theorem startPrimitive_sb (r : U256) : (s.startPrimitive r).sb = s.sb := rfl
@[simp] theorem startPrimitive_sd (r : U256) : (s.startPrimitive r).sd = s.sd := rfl
@[simp] theorem startPrimitive_k (r : U256) : (s.startPrimitive r).k = s.k := rfl
@[simp] theorem startPrimitive_res (r : U256) : (s.startPrimitive r).res = r := rfl
@[simp] theorem startPrimitive_a (r : U256) : (s.startPrimitive r).a = s.a := rfl
@[simp] theorem startPrimitive_b (r : U256) : (s.startPrimitive r).b = s.b := rfl
@[simp] theorem startPrimitive_n (r : U256) : (s.startPrimitive r).n = s.n := rfl
@[simp] theorem startPrimitive_j (r : U256) : (s.startPrimitive r).j = s.j := rfl
@[simp] theorem startPrimitive_i (r : U256) : (s.startPrimitive r).i = s.i := rfl
@[simp] theorem startPrimitive_ie (r : U256) : (s.startPrimitive r).ie = s.ie := rfl
@[simp] theorem startPrimitive_done (r : U256) : (s.startPrimitive r).done = s.done := rfl
@[simp] theorem startPrimitive_err (r : U256) : (s.startPrimitive r).err = s.err := rfl
@[simp] theorem startPrimitive_bwe (r : U256) : (s.startPrimitive r).bwe = s.bwe := rfl
@[simp] theorem startPrimitive_code (r : U256) : (s.startPrimitive r).code = s.code := rfl
@[simp] theorem startPrimitive_schedule (r : U256) : (s.startPrimitive r).schedule = s.schedule := rfl
@[simp] theorem startPrimitive_resp (r : U256) : (s.startPrimitive r).resp = s.resp := rfl
@[simp] theorem readW_startPrimitive (r : U256) (x : Reg) : (s.startPrimitive r).readW x = s.readW x := rfl

@[simp] theorem engineResult_w (r : U256) : (s.engineResult r).w = s.w := rfl
@[simp] theorem engineResult_ph (r : U256) : (s.engineResult r).ph = .commit := rfl
@[simp] theorem engineResult_op (r : U256) : (s.engineResult r).op = s.op := rfl
@[simp] theorem engineResult_rd (r : U256) : (s.engineResult r).rd = s.rd := rfl
@[simp] theorem engineResult_sa (r : U256) : (s.engineResult r).sa = s.sa := rfl
@[simp] theorem engineResult_sb (r : U256) : (s.engineResult r).sb = s.sb := rfl
@[simp] theorem engineResult_sd (r : U256) : (s.engineResult r).sd = s.sd := rfl
@[simp] theorem engineResult_k (r : U256) : (s.engineResult r).k = s.k := rfl
@[simp] theorem engineResult_res (r : U256) : (s.engineResult r).res = r := rfl
@[simp] theorem engineResult_a (r : U256) : (s.engineResult r).a = s.a := rfl
@[simp] theorem engineResult_b (r : U256) : (s.engineResult r).b = s.b := rfl
@[simp] theorem engineResult_n (r : U256) : (s.engineResult r).n = s.n := rfl
@[simp] theorem engineResult_j (r : U256) : (s.engineResult r).j = s.j := rfl
@[simp] theorem engineResult_i (r : U256) : (s.engineResult r).i = s.i := rfl
@[simp] theorem engineResult_ie (r : U256) : (s.engineResult r).ie = s.ie := rfl
@[simp] theorem engineResult_done (r : U256) : (s.engineResult r).done = s.done := rfl
@[simp] theorem engineResult_err (r : U256) : (s.engineResult r).err = s.err := rfl
@[simp] theorem engineResult_bwe (r : U256) : (s.engineResult r).bwe = s.bwe := rfl
@[simp] theorem engineResult_code (r : U256) : (s.engineResult r).code = s.code := rfl
@[simp] theorem engineResult_schedule (r : U256) : (s.engineResult r).schedule = s.schedule := rfl
@[simp] theorem engineResult_resp (r : U256) : (s.engineResult r).resp = s.resp := rfl
@[simp] theorem readW_engineResult (r : U256) (x : Reg) : (s.engineResult r).readW x = s.readW x := rfl

@[simp] theorem commitStep_w : (s.commitStep).w = (s.writeW s.rd s.res).w := rfl
@[simp] theorem commitStep_ph : (s.commitStep).ph = .idle := rfl
@[simp] theorem commitStep_op : (s.commitStep).op = s.op := rfl
@[simp] theorem commitStep_rd : (s.commitStep).rd = s.rd := rfl
@[simp] theorem commitStep_sa : (s.commitStep).sa = s.sa := rfl
@[simp] theorem commitStep_sb : (s.commitStep).sb = s.sb := rfl
@[simp] theorem commitStep_sd : (s.commitStep).sd = s.sd := rfl
@[simp] theorem commitStep_k : (s.commitStep).k = s.k := rfl
@[simp] theorem commitStep_res : (s.commitStep).res = s.res := rfl
@[simp] theorem commitStep_a : (s.commitStep).a = s.a := rfl
@[simp] theorem commitStep_b : (s.commitStep).b = s.b := rfl
@[simp] theorem commitStep_n : (s.commitStep).n = s.n := rfl
@[simp] theorem commitStep_j : (s.commitStep).j = s.j := rfl
@[simp] theorem commitStep_i : (s.commitStep).i = s.i := rfl
@[simp] theorem commitStep_ie : (s.commitStep).ie = s.ie := rfl
@[simp] theorem commitStep_done : (s.commitStep).done = true := rfl
@[simp] theorem commitStep_err : (s.commitStep).err = s.err := rfl
@[simp] theorem commitStep_bwe : (s.commitStep).bwe = s.bwe := rfl
@[simp] theorem commitStep_code : (s.commitStep).code = s.code := rfl
@[simp] theorem commitStep_schedule : (s.commitStep).schedule = s.schedule := rfl
@[simp] theorem commitStep_resp : (s.commitStep).resp = s.resp := rfl

@[simp] theorem served_w (rest : List Move) (r : Response) : (s.served rest r).w = s.w := rfl
@[simp] theorem served_ph (rest : List Move) (r : Response) : (s.served rest r).ph = s.ph := rfl
@[simp] theorem served_op (rest : List Move) (r : Response) : (s.served rest r).op = s.op := rfl
@[simp] theorem served_rd (rest : List Move) (r : Response) : (s.served rest r).rd = s.rd := rfl
@[simp] theorem served_sa (rest : List Move) (r : Response) : (s.served rest r).sa = s.sa := rfl
@[simp] theorem served_sb (rest : List Move) (r : Response) : (s.served rest r).sb = s.sb := rfl
@[simp] theorem served_sd (rest : List Move) (r : Response) : (s.served rest r).sd = s.sd := rfl
@[simp] theorem served_k (rest : List Move) (r : Response) : (s.served rest r).k = s.k := rfl
@[simp] theorem served_res (rest : List Move) (r : Response) : (s.served rest r).res = s.res := rfl
@[simp] theorem served_a (rest : List Move) (r : Response) : (s.served rest r).a = s.a := rfl
@[simp] theorem served_b (rest : List Move) (r : Response) : (s.served rest r).b = s.b := rfl
@[simp] theorem served_n (rest : List Move) (r : Response) : (s.served rest r).n = s.n := rfl
@[simp] theorem served_j (rest : List Move) (r : Response) : (s.served rest r).j = s.j := rfl
@[simp] theorem served_i (rest : List Move) (r : Response) : (s.served rest r).i = s.i := rfl
@[simp] theorem served_ie (rest : List Move) (r : Response) : (s.served rest r).ie = s.ie := rfl
@[simp] theorem served_done (rest : List Move) (r : Response) : (s.served rest r).done = s.done := rfl
@[simp] theorem served_err (rest : List Move) (r : Response) : (s.served rest r).err = s.err := rfl
@[simp] theorem served_bwe (rest : List Move) (r : Response) : (s.served rest r).bwe = s.bwe := rfl
@[simp] theorem served_code (rest : List Move) (r : Response) : (s.served rest r).code = s.code := rfl
@[simp] theorem served_schedule (rest : List Move) (r : Response) : (s.served rest r).schedule = rest := rfl
@[simp] theorem served_resp (rest : List Move) (r : Response) : (s.served rest r).resp = r := rfl
@[simp] theorem readW_served (rest : List Move) (r : Response) (x : Reg) : (s.served rest r).readW x = s.readW x := rfl

@[simp] theorem hardwareReset_w : s.hardwareReset.w = State.reset.w := rfl
@[simp] theorem hardwareReset_ph : s.hardwareReset.ph = State.reset.ph := rfl
@[simp] theorem hardwareReset_op : s.hardwareReset.op = State.reset.op := rfl
@[simp] theorem hardwareReset_rd : s.hardwareReset.rd = State.reset.rd := rfl
@[simp] theorem hardwareReset_sa : s.hardwareReset.sa = State.reset.sa := rfl
@[simp] theorem hardwareReset_sb : s.hardwareReset.sb = State.reset.sb := rfl
@[simp] theorem hardwareReset_sd : s.hardwareReset.sd = State.reset.sd := rfl
@[simp] theorem hardwareReset_k : s.hardwareReset.k = State.reset.k := rfl
@[simp] theorem hardwareReset_res : s.hardwareReset.res = State.reset.res := rfl
@[simp] theorem hardwareReset_a : s.hardwareReset.a = State.reset.a := rfl
@[simp] theorem hardwareReset_b : s.hardwareReset.b = State.reset.b := rfl
@[simp] theorem hardwareReset_n : s.hardwareReset.n = State.reset.n := rfl
@[simp] theorem hardwareReset_j : s.hardwareReset.j = State.reset.j := rfl
@[simp] theorem hardwareReset_i : s.hardwareReset.i = State.reset.i := rfl
@[simp] theorem hardwareReset_ie : s.hardwareReset.ie = State.reset.ie := rfl
@[simp] theorem hardwareReset_done : s.hardwareReset.done = State.reset.done := rfl
@[simp] theorem hardwareReset_err : s.hardwareReset.err = State.reset.err := rfl
@[simp] theorem hardwareReset_bwe : s.hardwareReset.bwe = State.reset.bwe := rfl
@[simp] theorem hardwareReset_code : s.hardwareReset.code = State.reset.code := rfl
@[simp] theorem hardwareReset_schedule : s.hardwareReset.schedule = s.schedule := rfl
@[simp] theorem hardwareReset_resp : s.hardwareReset.resp = State.reset.resp := rfl

@[simp] theorem readW_writeW_same (r : Reg) (v : U256) : (s.writeW r v).readW r = v := by
  simp [State.readW, State.writeW]

theorem readW_writeW_ne (r x : Reg) (v : U256) (h : x ≠ r) : (s.writeW r v).readW x = s.readW x := by
  have hn : r.toNat ≠ x.toNat := fun e => h (BitVec.eq_of_toNat_eq e.symm)
  simp [State.readW, State.writeW, Vector.getElem_set_ne, hn]

theorem readW_reset (r : Reg) : State.reset.readW r = 0 := by simp [State.readW, State.reset]

/-- Two states with the same W file read the same. -/
theorem readW_congr (t : State) (h : s.w = t.w) (r : Reg) : s.readW r = t.readW r := by simp only [State.readW, h]

end Fields

end Sys2Proof.Machine
end

