-- ==== Sys2Proof/Laws/Ops.lean ====
section
/-! SUPPORT. What each shared operation can do, said once. -/

namespace Sys2Proof.Machine

/-- Acceptance of a primitive always answers one next state. -/
theorem acceptPrimitive_spec (op : Opcode) (rd rs1 rs2 : Reg) (f : State → U256) (s : State) :
    acceptPrimitive op rd rs1 rs2 f s =
      .next { s.latch op rd rs1 rs2 with res := f (s.latch op rd rs1 rs2), ph := .commit } := rfl

/-- An engine command is rejected or accepted, and nothing else. -/
theorem acceptEngine_cases (op : Opcode) (rd rs1 : Reg) (start : State → State) (s : State) :
    (indexNegative (s.index rs1) = true ∧ acceptEngine op rd rs1 start s = .next (s.reject .negIndex)) ∨
    (indexNegative (s.index rs1) = false ∧
      acceptEngine op rd rs1 start s = .next (start { s.latch op rd rs1 0 with k := s.index rs1 })) := by
  unfold acceptEngine
  cases h : indexNegative (s.index rs1) <;> simp

/-! What `exec` does with each command: one acceptance. -/

theorem exec_sets (rd rs1 : Reg) (s : State) :
    exec (.sets rd rs1) s = acceptPrimitive 0x01#8 rd rs1 0 (fun t => setFromSigned (lo t.sa)) s := rfl

theorem exec_setsi (rd : Reg) (imm : Int) (s : State) :
    exec (.setsi rd imm) s = acceptPrimitive 0x02#8 rd ((immField imm).extractLsb' 16 4)
      ((immField imm).extractLsb' 12 4) (fun _ => setFromSigned (immLimb imm)) s := rfl

theorem exec_copy (rd rs1 : Reg) (s : State) :
    exec (.copy rd rs1) s = acceptPrimitive 0x03#8 rd rs1 0 (fun t => t.sa) s := rfl

theorem exec_add (rd rs1 rs2 : Reg) (s : State) :
    exec (.add rd rs1 rs2) s = acceptPrimitive 0x10#8 rd rs1 rs2 (fun t => addU256 t.sa t.sb) s := rfl

theorem exec_adds (rd rs1 : Reg) (s : State) :
    exec (.adds rd rs1) s = acceptPrimitive 0x11#8 rd rs1 0 (fun t => addScalar t.sd (lo t.sa)) s := rfl

theorem exec_sub (rd rs1 rs2 : Reg) (s : State) :
    exec (.sub rd rs1 rs2) s = acceptPrimitive 0x12#8 rd rs1 rs2 (fun t => subU256 t.sa t.sb) s := rfl

theorem exec_mul (rd rs1 rs2 : Reg) (s : State) :
    exec (.mul rd rs1 rs2) s = acceptPrimitive 0x20#8 rd rs1 rs2 (fun t => mul128 (lo t.sa) (lo t.sb)) s := rfl

theorem exec_mulw (rd rs1 rs2 : Reg) (s : State) :
    exec (.mulw rd rs1 rs2) s = acceptPrimitive 0x21#8 rd rs1 rs2 (fun t => mulWide t.sa t.sb) s := rfl

theorem exec_fibs128 (rd rs1 : Reg) (s : State) :
    exec (.fibs128 rd rs1) s = acceptEngine 0x30#8 rd rs1 State.startIterative s := rfl

theorem exec_fibd128 (rd rs1 : Reg) (s : State) :
    exec (.fibd128 rd rs1) s = acceptEngine 0x31#8 rd rs1 State.startDoubling s := rfl

theorem exec_fibc128 (rd rs1 : Reg) (s : State) :
    exec (.fibc128 rd rs1) s = acceptEngine 0x32#8 rd rs1 State.startDoubling s := rfl

theorem exec_fibi256 (rd rs1 : Reg) (s : State) :
    exec (.fibi256 rd rs1) s = acceptEngine 0x38#8 rd rs1 State.startIterative s := rfl

theorem exec_fibc256 (rd rs1 : Reg) (s : State) :
    exec (.fibc256 rd rs1) s = acceptEngine 0x39#8 rd rs1 State.startDoubling s := rfl

theorem exec_fibc256w (rd rs1 : Reg) (s : State) :
    exec (.fibc256w rd rs1) s = acceptEngine 0x3A#8 rd rs1 State.startDoubling s := rfl

/-- Every start rule of an engine command leaves everything but RES, PH, N, J, A, B and I alone, and makes the engine
BUSY. -/
def StartFrame (start : State → State) : Prop :=
  ∀ s : State, (start s).busy = true ∧ (start s).w = s.w ∧ (start s).op = s.op ∧ (start s).rd = s.rd ∧
    (start s).sa = s.sa ∧ (start s).sb = s.sb ∧ (start s).sd = s.sd ∧ (start s).k = s.k ∧ (start s).ie = s.ie ∧
    (start s).done = s.done ∧ (start s).err = s.err ∧ (start s).bwe = s.bwe ∧ (start s).code = s.code ∧
    (start s).schedule = s.schedule ∧ (start s).resp = s.resp

theorem startIterative_frame : StartFrame State.startIterative := by
  intro s
  unfold State.startIterative State.engineResult
  split <;> simp [State.busy]

theorem startDoubling_frame : StartFrame State.startDoubling := by
  intro s
  unfold State.startDoubling State.engineResult
  dsimp only
  split <;> [skip; split] <;> simp [State.busy]

/-- An accepted primitive shows the host nothing but DONE cleared. -/
theorem acceptPrimitive_accepted (op : Opcode) (rd rs1 rs2 : Reg) (f : State → U256) (s : State) :
    ∃ t, acceptPrimitive op rd rs1 rs2 f s = .next t ∧ AcceptedFrom s t := by
  refine ⟨_, acceptPrimitive_spec op rd rs1 rs2 f s, ?_⟩
  simp [AcceptedFrom, State.latch]

/-- An accepted engine command shows the host nothing but DONE cleared. -/
theorem acceptEngine_accepted (op : Opcode) (rd rs1 : Reg) (start : State → State) (hf : StartFrame start) (s : State)
    (h : indexNegative (s.index rs1) = false) :
    ∃ t, acceptEngine op rd rs1 start s = .next t ∧ AcceptedFrom s t := by
  refine ⟨start { s.latch op rd rs1 0 with k := s.index rs1 }, by simp [acceptEngine, h], ?_⟩
  obtain ⟨-, hw, -, -, -, -, -, -, hie, hd, he, hb, hc, hs, hr⟩ := hf { s.latch op rd rs1 0 with k := s.index rs1 }
  simp_all [AcceptedFrom, State.latch]

/-- A LOOP step leaves everything but RES, PH, A, B, J and I alone, and PH stays LOOP or becomes COMMIT. -/
def LoopFrame (s t : State) : Prop :=
  (t.ph = s.ph ∨ t.ph = .commit) ∧ t.w = s.w ∧ t.op = s.op ∧ t.rd = s.rd ∧ t.sa = s.sa ∧ t.sb = s.sb ∧ t.sd = s.sd ∧
    t.k = s.k ∧ t.n = s.n ∧ t.ie = s.ie ∧ t.done = s.done ∧ t.err = s.err ∧ t.bwe = s.bwe ∧ t.code = s.code ∧
    t.schedule = s.schedule ∧ t.resp = s.resp

theorem iterate_frame (s : State) (a b f : U256) : LoopFrame s (s.iterate a b f) := by
  unfold State.iterate State.engineResult
  dsimp only
  split <;> simp [LoopFrame]

theorem double_frame (s : State) (d : U256 → U256 → Bool → U256 × U256) : LoopFrame s (s.double d) := by
  unfold State.double State.engineResult
  dsimp only
  split <;> simp [LoopFrame]

theorem loopOf_frame (e : Engine) (s : State) : LoopFrame s (loopOf e s) := by
  cases e
  · exact iterate_frame ..
  · exact double_frame ..
  · exact double_frame ..
  · exact iterate_frame ..
  · exact double_frame ..
  · exact double_frame ..

/-- What a turn of the engine can answer. -/
theorem engineTurn_cases (s : State) :
    (s.ph = .idle ∧ engineTurn s = .next s) ∨
    (∃ e, s.ph = .loop ∧ engineOf s.op = some e ∧ engineTurn s = .next (loopOf e s)) ∨
    (s.ph = .loop ∧ engineOf s.op = none ∧ engineTurn s = .fault .loopWithoutEngine) ∨
    (s.ph = .commit ∧ engineTurn s = .next s.commitStep) := by
  unfold engineTurn loopStep
  cases hp : s.ph <;> simp only [reduceCtorEq, false_and, and_false, true_and, exists_false, or_false, false_or]
  cases he : engineOf s.op <;> simp

/-- A host access that reached the window: a read, a write to one register, or a bus error. -/
theorem windowAccess_cases (off : Nat) (op : HostOp) (s : State) :
    (off % 4 = 0 ∧ op = .read .word ∧ windowAccess off op s = .next { s with resp := .data (s.hostRead off) }) ∨
    (∃ v, off % 4 = 0 ∧ op = .write (.word v) ∧
      windowAccess off op s = windowWrite (windowReg off) v { s with resp := .written }) ∨
    ((off % 4 ≠ 0 ∨ op.size ≠ .word) ∧ windowAccess off op s = .next { s with resp := .busError }) := by
  unfold windowAccess
  by_cases h : off % 4 = 0
  · rcases op with (_ | _ | _ | _) | (_ | _ | _ | _) <;> simp [h, HostOp.size, WriteData.size]
  · simp [h]

/-- What a step does: the first move, or the engine's turn when none is left. -/
theorem step_cases (s : State) :
    (s.schedule = [] ∧ step s = engineTurn s) ∨
    (∃ rest, s.schedule = .engine :: rest ∧ step s = engineTurn { s with schedule := rest }) ∨
    (∃ rest, s.schedule = .reset :: rest ∧ step s = .next { s with schedule := rest }.hardwareReset) ∨
    (∃ x rest, s.schedule = .host x :: rest ∧ step s = hostAccess x { s with schedule := rest }) := by
  unfold step nextMove takeMove
  rcases hs : s.schedule with _ | ⟨_ | _ | _, rest⟩ <;> simp

/-- A 32-bit write at an aligned offset of the window, as the next move. -/
theorem step_hostWrite32 (s : State) (off : Nat) (v : Word) (rest : List Move)
    (h : s.schedule = hostWrite32 off v :: rest) (hlt : off < 0x400) (hal : off % 4 = 0) :
    step s = windowWrite (windowReg off) v (s.served rest .written) := by
  simp [step, nextMove, h, hostWrite32, takeMove, hostAccess, HostAddr.windowOffset?, Config.windowSize, hlt,
    windowAccess, hal, State.served]

/-- A 32-bit read at an aligned offset of the window, as the next move. -/
theorem step_hostRead32 (s : State) (off : Nat) (rest : List Move)
    (h : s.schedule = hostRead32 off :: rest) (hlt : off < 0x400) (hal : off % 4 = 0) :
    step s = .next { s.served rest .none with resp := .data ({ s with schedule := rest }.hostRead off) } := by
  simp [step, nextMove, h, hostRead32, takeMove, hostAccess, HostAddr.windowOffset?, Config.windowSize, hlt,
    windowAccess, hal, State.served]

/-- A command word that arrives at an IDLE engine: rejected by the decoder, or given to its meaning. -/
theorem cmdWrite_idle (v : Word) (s : State) (h : s.ph = .idle) :
    cmdWrite v s = match decode v with
      | .rejected c => .next (s.reject c)
      | .command i => exec i s := by
  cases hd : decode v <;> simp [cmdWrite, State.busy, h, hd]

/-- A command word that arrives at a BUSY engine is discarded. -/
theorem cmdWrite_busy (v : Word) (s : State) (h : s.busy = true) : cmdWrite v s = .next s.discard := by
  simp [cmdWrite, h]

/-- The W-window word an offset reaches (R52). -/
theorem windowReg_wOffset (r : Reg) (j : Fin 8) : windowReg (wOffset r j) = .wWord r j := by
  have hr := r.isLt
  have hj := j.isLt
  have h1 : (0x200 + 32 * r.toNat + 4 * j.val - 0x200) / 32 = r.toNat := by omega
  have h2 : (0x200 + 32 * r.toNat + 4 * j.val - 0x200) / 4 % 8 = j.val := by omega
  have h3 : BitVec.ofNat 4 r.toNat = r := by simp
  have h4 : Fin.ofNat 8 ((0x200 + 32 * r.toNat + 4 * j.val - 0x200) / 4) = j := Fin.ext h2
  simp only [windowReg, wOffset, h1, h3, h4]
  repeat rw [if_neg (by omega)]

end Sys2Proof.Machine
end

