-- ==== Sys2Proof/Laws/PerInstr.lean ====
section
/-! SUPPORT. What holds of every command as syntax, one lemma per constructor of Instr. -/

namespace Sys2Proof.Laws.OpcodeByte

/-- The word of a command carries the command's opcode in bits 31:24 and its destination in bits 23:20 (spec
30_encoding.md R81, R85). -/
def Statement (i : Instr) : Prop := fieldOpc (encode i) = i.opcode ∧ fieldRd (encode i) = i.dest

/-- A word whose value is a sum of field weights has those fields. -/
theorem fields_of_weights (v : Word) (opc : Opcode) (rd : Reg) (low : Nat) (hl : low < 2 ^ 20)
    (h : v.toNat = opc.toNat * 2 ^ 24 + rd.toNat * 2 ^ 20 + low) : fieldOpc v = opc ∧ fieldRd v = rd := by
  have ho := opc.isLt
  have hd := rd.isLt
  constructor <;> apply BitVec.eq_of_toNat_eq
  · rw [fieldOpc, toNat_field]
    omega
  · rw [fieldRd, toNat_field]
    omega

theorem r2 (opc : Opcode) (rd rs1 : Reg) :
    fieldOpc (encodeR2 opc rd rs1) = opc ∧ fieldRd (encodeR2 opc rd rs1) = rd :=
  fields_of_weights _ opc rd (rs1.toNat * 2 ^ 16) (by have := rs1.isLt; omega) (toNat_encodeR2 opc rd rs1)

theorem r3 (opc : Opcode) (rd rs1 rs2 : Reg) :
    fieldOpc (encodeR3 opc rd rs1 rs2) = opc ∧ fieldRd (encodeR3 opc rd rs1 rs2) = rd :=
  fields_of_weights _ opc rd (rs1.toNat * 2 ^ 16 + rs2.toNat * 2 ^ 12)
    (by have := rs1.isLt; have := rs2.isLt; omega) (by rw [toNat_encodeR3]; omega)

theorem i20 (opc : Opcode) (rd : Reg) (imm : Int) :
    fieldOpc (encodeI20 opc rd imm) = opc ∧ fieldRd (encodeI20 opc rd imm) = rd :=
  fields_of_weights _ opc rd _ (BitVec.ofInt 20 imm).isLt (toNat_encodeI20 opc rd imm)

theorem sets (rd rs1 : Reg) : Statement (.sets rd rs1) := r2 _ rd rs1
theorem setsi (rd : Reg) (imm : Int) : Statement (.setsi rd imm) := i20 _ rd imm
theorem copy (rd rs1 : Reg) : Statement (.copy rd rs1) := r2 _ rd rs1
theorem add (rd rs1 rs2 : Reg) : Statement (.add rd rs1 rs2) := r3 _ rd rs1 rs2
theorem adds (rd rs1 : Reg) : Statement (.adds rd rs1) := r2 _ rd rs1
theorem sub (rd rs1 rs2 : Reg) : Statement (.sub rd rs1 rs2) := r3 _ rd rs1 rs2
theorem mul (rd rs1 rs2 : Reg) : Statement (.mul rd rs1 rs2) := r3 _ rd rs1 rs2
theorem mulw (rd rs1 rs2 : Reg) : Statement (.mulw rd rs1 rs2) := r3 _ rd rs1 rs2
theorem fibs128 (rd rs1 : Reg) : Statement (.fibs128 rd rs1) := r2 _ rd rs1
theorem fibd128 (rd rs1 : Reg) : Statement (.fibd128 rd rs1) := r2 _ rd rs1
theorem fibc128 (rd rs1 : Reg) : Statement (.fibc128 rd rs1) := r2 _ rd rs1
theorem fibi256 (rd rs1 : Reg) : Statement (.fibi256 rd rs1) := r2 _ rd rs1
theorem fibc256 (rd rs1 : Reg) : Statement (.fibc256 rd rs1) := r2 _ rd rs1
theorem fibc256w (rd rs1 : Reg) : Statement (.fibc256w rd rs1) := r2 _ rd rs1

end Sys2Proof.Laws.OpcodeByte
end

