-- ==== Sys2Proof/Tests/Slice0.lean ====
section
/-! SUPPORT. The model's own tests. Expected values are the spec's: the rules' examples and corner cases and the tables of
95_test_vectors.md, named at each test. The `witness_` theorems show that the hypotheses of each statement of
Certificates/Slice0/Obligations.lean can be met, at the boundaries of their ranges. -/

-- One theorem after another: kernel evaluations side by side each take a thread of their own.
set_option Elab.async false

namespace Sys2Proof.Tests

open Sys2Proof.Machine

/-- The next state of an outcome; the reset state with a scheduled reset, which no test expects, for a stop. -/
def after (o : Host.Outcome State Fault Refusal) : State :=
  match o with
  | .next t => t
  | _ => { State.reset with schedule := [.reset] }

/-- The reset state with W1 and W2 set. -/
def regs (x y : U256) : State := (State.reset.writeW 1 x).writeW 2 y

/-- The reset state with the index `k` in W1. -/
def idx (k : U256) : State := State.reset.writeW 1 k

/-- What `W[r]` holds after command `i` and `turns` engine turns. -/
def result (i : Instr) (s : State) (turns : Nat) (r : Reg) : U256 :=
  (after (engineRun turns (after (exec i s)))).readW r

/-- The reset state with the host's moves `ms` to come. -/
def host (ms : List Move) : State := { State.reset with schedule := ms }

/-- The state after `k` steps. -/
def afterSteps (k : Nat) (s : State) : State := after (Host.Core.run Sys2Proof.core k s)

/-! ### Well-formedness: the one check, and its boundaries (R83, R90) -/

theorem test_wf_imm_too_large : (Instr.setsi 1 524288).wellFormed = false := by decide
theorem test_wf_imm_too_small : (Instr.setsi 1 (-524289)).wellFormed = false := by decide
theorem test_wf_imm_bounds : (Instr.setsi 1 524287).wellFormed = true ∧ (Instr.setsi 1 (-524288)).wellFormed = true := by
  decide

/-! ### Decoding: the words of R89, each written from the fields of R81 -/

theorem test_decode_sets : decode 0x01210000#32 = .command (.sets 2 1) := by decide +kernel
theorem test_decode_setsi : decode 0x021FFFFF#32 = .command (.setsi 1 (-1)) := by decide +kernel
theorem test_decode_copy : decode 0x03430000#32 = .command (.copy 4 3) := by decide +kernel
theorem test_decode_add : decode 0x10312000#32 = .command (.add 3 1 2) := by decide +kernel
theorem test_decode_adds : decode 0x11560000#32 = .command (.adds 5 6) := by decide +kernel
theorem test_decode_sub : decode 0x12732000#32 = .command (.sub 7 3 2) := by decide +kernel
theorem test_decode_mul : decode 0x20812000#32 = .command (.mul 8 1 2) := by decide +kernel
theorem test_decode_mulw : decode 0x21912000#32 = .command (.mulw 9 1 2) := by decide +kernel
theorem test_decode_fibs128 : decode 0x30010000#32 = .command (.fibs128 0 1) := by decide +kernel
theorem test_decode_fibd128 : decode 0x31010000#32 = .command (.fibd128 0 1) := by decide +kernel
theorem test_decode_fibc128 : decode 0x32010000#32 = .command (.fibc128 0 1) := by decide +kernel
theorem test_decode_fibi256 : decode 0x38010000#32 = .command (.fibi256 0 1) := by decide +kernel
theorem test_decode_fibc256 : decode 0x39010000#32 = .command (.fibc256 0 1) := by decide +kernel
theorem test_decode_fibc256w : decode 0x3A010000#32 = .command (.fibc256w 0 1) := by decide +kernel

/-- R89's rejected words, and the neighbours of listed opcodes (95_test_vectors.md 2.6). -/
theorem test_decode_rejects :
    decode 0x00000000#32 = .rejected .illegalOpcode ∧ decode 0x3B010000#32 = .rejected .illegalOpcode ∧
    decode 0x13312000#32 = .rejected .illegalOpcode ∧ decode 0x44020001#32 = .rejected .illegalOpcode ∧
    decode 0x10312001#32 = .rejected .reservedField ∧ decode 0x10312800#32 = .rejected .reservedField ∧
    decode 0x03431000#32 = .rejected .reservedField ∧ decode 0x30020001#32 = .rejected .reservedField := by
  decide +kernel

theorem test_encode_words :
    encode (.setsi 15 (-1)) = 0x02FFFFFF#32 ∧ encode (.sub 11 10 6) = 0x12BA6000#32 ∧
    encode (.fibc256w 12 9) = 0x3AC90000#32 := by decide +kernel

/-- The table's numbering: a word of `nbits` bits, and the very next step running it. -/
theorem test_table_word : decodeTableWord 32 0x12732000 = some (.sub 7 3 2) := by decide +kernel

theorem test_fetch_word_runs :
    (afterSteps 2 ((regs 5 7).withFetchWord 32 0x10312000)).readW 3 = 12 := by decide +kernel

/-! ### Results: the rules' examples and corner cases -/

/-- R100's example. -/
theorem test_sets :
    result (.sets 2 1) (regs 0x00000000000000000000000000000005fffffffffffffffffffffffffffffffe 0) 1 2 =
      0xfffffffffffffffffffffffffffffffffffffffffffffffffffffffffffffffe#256 := by decide +kernel

/-- R101's corner case -524288. -/
theorem test_setsi :
    result (.setsi 1 (-524288)) State.reset 1 1 =
      0xfffffffffffffffffffffffffffffffffffffffffffffffffffffffffff80000#256 := by decide +kernel

/-- R62: SETSI latches the W registers that bits [19:12] of its immediate name. -/
theorem test_setsi_latches : (after (exec (.setsi 5 0x12000) (regs 11 22))).sa = 11 ∧
    (after (exec (.setsi 5 0x12000) (regs 11 22))).sb = 22 := by decide +kernel

/-- R102: COPY to itself still runs one command. -/
theorem test_copy :
    result (.copy 1 1) (regs 0x8000000000000000000000000000000000000000000000000000000000000005 0) 1 1 =
      0x8000000000000000000000000000000000000000000000000000000000000005#256 ∧
    (after (engineRun 1 (after (exec (.copy 1 1) State.reset)))).done = true := by decide +kernel

/-- R120's corner case with D = S2: the carry comes from the latched operand (90_conflicts.md C4). -/
theorem test_add_carry_in_place :
    result (.add 2 1 2) (regs 0xffffffffffffffffffffffffffffffff 1) 1 2 = 0x100000000000000000000000000000000#256 := by
  decide +kernel

/-- 95_test_vectors.md 2.2, both limbs and both carries. -/
theorem test_add_wraps :
    result (.add 3 1 2) (regs 0xfffffffffffffffffffffffffffffffffffffffffffffffffffffffffffffffe
      0x100000000000000000000000000000001) 1 3 = 0xffffffffffffffffffffffffffffffff#256 := by decide +kernel

/-- 95_test_vectors.md 2.2: ADDS ignores the source's high limb, and adds W5 + W5.lo when D = S1. -/
theorem test_adds :
    result (.adds 2 1) (regs 0x900000000000000000000000000000001 5) 1 2 = 6 ∧
    result (.adds 1 1) (regs 0x1ffffffffffffffffffffffffffffffff 0) 1 1 =
      0x2fffffffffffffffffffffffffffffffe#256 := by decide +kernel

/-- R122's corner cases 2^128 - 1 and 0 - 1. -/
theorem test_sub :
    result (.sub 3 1 2) (regs 0x100000000000000000000000000000000 1) 1 3 = 0xffffffffffffffffffffffffffffffff#256 ∧
    result (.sub 3 1 2) (regs 0 1) 1 3 = BitVec.allOnes 256 := by decide +kernel

/-- 95_test_vectors.md 2.3: maxLimb squared (k2 = 1), and high limbs ignored. -/
theorem test_mul :
    result (.mul 3 1 2) (regs 0xffffffffffffffffffffffffffffffff 0xffffffffffffffffffffffffffffffff) 1 3 =
      0xfffffffffffffffffffffffffffffffe00000000000000000000000000000001#256 ∧
    result (.mul 3 1 2) (regs 0x500000000000000000000000000000007 0xffffffffffffffffffffffffffffffff00000000000000000000000000000006)
      1 3 = 42 := by decide +kernel

/-- R141's example. -/
theorem test_mulw :
    result (.mulw 3 1 2) (regs 0x100000000000000000000000000000001 0xffffffffffffffffffffffffffffffff) 1 3 =
      BitVec.allOnes 256 := by decide +kernel

/-- R161: K = 10 in 9 LOOP steps and a commit; bits [255:64] of the index are ignored. -/
theorem test_fibs128 : result (.fibs128 0 1) (idx 0x1000000000000000a) 10 0 = 55 := by decide +kernel

/-- R166's example, K = 100, in 6 LOOP steps and a commit. -/
theorem test_fibd128 : result (.fibd128 0 1) (idx 100) 7 0 = 354224848179261915075 := by decide +kernel

/-- R165: K = 187 wraps mod 2^128, high limb 0 (43_fib128.md R169). -/
theorem test_fibc128 : result (.fibc128 1 1) (idx 187) 8 1 = 0x9523a14f41e24f1bf8be54931aab3e85#256 := by
  decide +kernel

/-- R165's trace of FIBC128 at K = 10: after the second LOOP step, (A, B) = (3, 5) and J = 1. -/
theorem test_fibc128_trace :
    (after (engineRun 2 (after (exec (.fibc128 0 1) (idx 10))))).a = 3 ∧
    (after (engineRun 2 (after (exec (.fibc128 0 1) (idx 10))))).b = 5 ∧
    (after (engineRun 2 (after (exec (.fibc128 0 1) (idx 10))))).j = 1 := by decide +kernel

/-- R190's corner case K = 94, the first value over 64 bits. -/
theorem test_fibi256 : result (.fibi256 0 1) (idx 94) 94 0 = 0x111f38ad0840bf6bf#256 := by decide +kernel

/-- R193: at K = 372 the low-limb products are first wrong. -/
theorem test_fibc256 :
    result (.fibc256 0 1) (idx 372) 9 0 = 0x88de88b32faab36e759608deb4a0a2c526346321c8d87ffd6b413031c9b79170#256 := by
  decide +kernel

/-- R194: at K = 372 the full-width products are right mod 2^256. -/
theorem test_fibc256w :
    result (.fibc256w 0 1) (idx 372) 9 0 = 0x239e6128776b97faa5ad3c369c19705226346321c8d87ffd6b413031c9b79170#256 := by
  decide +kernel

/-- R163: K = 2 needs no iteration in a doubling engine; K < 2 none in any. -/
theorem test_small_indices :
    result (.fibc256 0 1) (idx 2) 1 0 = 1 ∧ result (.fibi256 0 1) (idx 1) 1 0 = 1 ∧
    result (.fibs128 0 1) (idx 0) 1 1 = 0 := by decide +kernel

/-- 95_test_vectors.md 2.4: K = 2^63 is rejected with NEG_INDEX and W[D] is unchanged. -/
theorem test_negative_index :
    (after (exec (.fibs128 1 1) (idx 0x8000000000000000))).code = 3 ∧
    (after (exec (.fibs128 1 1) (idx 0x8000000000000000))).err = true ∧
    (after (exec (.fibs128 1 1) (idx 0x8000000000000000))).busy = false := by decide +kernel

/-- R166: the recursion gives F(100) too. -/
theorem test_drec : (drec 64 99).2 = 354224848179261915075 := by decide +kernel

/-! ### The window and the schedule: 95_test_vectors.md 2.7 -/

theorem test_window_write_little_endian :
    (afterSteps 2 (host [hostWrite32 0x220 0x12345678, hostWrite32 0x23C 0x80000000])).readW 1 =
      0x8000000000000000000000000000000000000000000000000000000012345678#256 ∧
    (afterSteps 1 (host [hostWrite32 0x220 0x12345678])).windowByte 0x220 = 0x78 := by decide +kernel

theorem test_reject_and_acknowledge :
    (afterSteps 2 (host [hostWrite32 0x004 0xFFFFFFFF, hostWrite32 0x010 0])).hostRead 0x008 = 4 ∧
    (afterSteps 2 (host [hostWrite32 0x004 0xFFFFFFFF, hostWrite32 0x010 0])).irq = true ∧
    (afterSteps 3 (host [hostWrite32 0x004 0xFFFFFFFF, hostWrite32 0x010 0, hostWrite32 0x008 4])).hostRead 0x00C = 0 ∧
    (afterSteps 3 (host [hostWrite32 0x004 0xFFFFFFFF, hostWrite32 0x010 0, hostWrite32 0x008 4])).irq = false := by
  decide +kernel

/-- R222's codes 1 and 2: 95_test_vectors.md P4, lines 2 and 3, and 11 and 12. -/
theorem test_rejection_codes :
    (afterSteps 2 (host [hostWrite32 0x010 0, hostRead32 0x00C])).resp = .data 1 ∧
    (afterSteps 2 (host [hostWrite32 0x010 0x10312001, hostRead32 0x00C])).resp = .data 2 := by decide +kernel

/-- A W-window write before the commit is discarded; under the other schedule it lands after it. -/
theorem test_write_races_commit :
    (afterSteps 3 (host [hostWrite32 0x010 0x02200007, hostWrite32 0x240 1, .engine])).readW 2 = 7 ∧
    (afterSteps 3 (host [hostWrite32 0x010 0x02200007, hostWrite32 0x240 1, .engine])).hostRead 0x008 = 0xA ∧
    (afterSteps 3 (host [hostWrite32 0x010 0x02200007, .engine, hostWrite32 0x240 1])).readW 2 = 1 ∧
    (afterSteps 3 (host [hostWrite32 0x010 0x02200007, .engine, hostWrite32 0x240 1])).bwe = false := by decide +kernel

/-- R58: two reads of one W register may fall on either side of a commit. -/
theorem test_reads_tear :
    (afterSteps 2 (host [hostWrite32 0x010 0x022FFFFF, hostRead32 0x240, .engine, hostRead32 0x244])).resp = .data 0 ∧
    (afterSteps 4 (host [hostWrite32 0x010 0x022FFFFF, hostRead32 0x240, .engine, hostRead32 0x244])).resp =
      .data 0xFFFFFFFF := by decide +kernel

/-- R57: a byte access, and a 32-bit access at offset 2, get a bus error. -/
theorem test_bus_error :
    (afterSteps 1 (host [.host ⟨.offset 0x220, .write (.byte 1)⟩])).resp = .busError ∧
    (afterSteps 1 (host [hostWrite32 0x222 1])).readW 1 = 0 := by decide +kernel

/-- R250: a reset abandons a running command. -/
theorem test_reset_abandons :
    (afterSteps 2 (host [hostWrite32 0x010 0x02200007, .reset])).busy = false ∧
    (afterSteps 3 (host [hostWrite32 0x010 0x02200007, .reset])).readW 2 = 0 := by decide +kernel

/-- 95_test_vectors.md P5, the line K = 7, as a host script. -/
theorem test_script :
    (after (runScript 10 [] [.wr32 0x220 7, .issue (.fibc128 2 1), .wait, .rd32 0x240] State.reset)).resp = .data 13 := by
  decide +kernel

/-- 95_test_vectors.md P4, lines 17 to 21, at K = 3: the COPY is discarded unless the engine's 3 steps come before it. -/
theorem test_script_schedules :
    (after (runScript 10 [] [.wr32 0x220 3, .issue (.fibs128 2 1), .issue (.copy 3 1), .wait, .rd32 0x008]
      State.reset)).resp = .data 0xA ∧
    (after (runScript 10 [0, 0, 3] [.wr32 0x220 3, .issue (.fibs128 2 1), .issue (.copy 3 1), .wait, .rd32 0x008]
      State.reset)).resp = .data 0x2 := by decide +kernel

theorem test_assemble :
    assemble "fibc128 W2, w1".toList = .refused ∧ assemble "fibc128 w2, w1 ; F".toList = .command (.fibc128 2 1) ∧
    assemble "  ; nothing".toList = .blank ∧ assemble "SETSI w1, -0x80000".toList = .command (.setsi 1 (-524288)) := by
  decide +kernel

/-! ### Witnesses: the hypotheses of each statement can be met -/

/-- DecodeOfEncode, at both ends of the immediate's range. -/
theorem witness_DecodeOfEncode : (Instr.setsi 3 (-524288)).WellFormed ∧ (Instr.setsi 3 524287).WellFormed := by decide

/-- EncodeOfDecode. -/
theorem witness_EncodeOfDecode : decode 0x02180000#32 = .command (.setsi 1 (-524288)) := by decide +kernel

/-- ImmediateIsSignExtendedField, at both ends of the field. -/
theorem witness_ImmediateIsSignExtendedField :
    (0x0217FFFF#32).extractLsb' 24 8 = 0x02#8 ∧ (0x02180000#32).extractLsb' 24 8 = 0x02#8 := by decide +kernel

/-- StepRunsDecodedCommand. -/
theorem witness_StepRunsDecodedCommand :
    (host [hostWrite32 0x010 0x10312000]).schedule = hostWrite32 0x010 0x10312000#32 :: [] ∧
    (host [hostWrite32 0x010 0x10312000]).ph = .idle ∧ decode 0x10312000#32 = .command (.add 3 1 2) := by decide +kernel

/-- CommandRejectionIsPrecise and AcceptanceAndRejectionFrames: each cause, two of them together for the priority. -/
theorem witness_CommandRejectionIsPrecise :
    (host [hostWrite32 0x010 0x30020001]).ph = .idle ∧ rejectCause 0xFF020001#32 (regs 0 0x8000000000000000) =
      some .illegalOpcode ∧ rejectCause 0x30020001#32 (regs 0 0x8000000000000000) = some .reservedField ∧
    rejectCause 0x10312001#32 State.reset = some .reservedField ∧
    rejectCause 0x30020000#32 (regs 0 0x8000000000000000) = some .negIndex := by decide +kernel

/-- AcceptanceAndRejectionFrames and AcceptanceLatchesOperands: accepted words, an engine command's at the largest index
included. -/
theorem witness_AcceptanceLatchesOperands :
    rejectCause 0x10312000#32 State.reset = none ∧ rejectCause 0x021FFFFF#32 State.reset = none ∧
    rejectCause 0x30020000#32 (regs 0 0x7FFFFFFFFFFFFFFF) = none ∧
    (host [hostWrite32 0x010 0x10312000]).ph = .idle := by decide +kernel

/-- A BUSY state with the move `m` to come. -/
def busyState (m : Move) : State := { after (exec (.copy 2 1) (idx 5)) with schedule := [m] }

/-- BusyWritesAreDiscarded: the CMD port and both ends of the W window. -/
theorem witness_BusyWritesAreDiscarded :
    (busyState (hostWrite32 0x010 1)).busy = true ∧ (busyState (hostWrite32 0x200 1)).busy = true ∧
    (busyState (hostWrite32 0x3FC 1)).schedule = hostWrite32 0x3FC 1 :: [] ∧ 0x3FC < 0x400 ∧ 0x3FC % 4 = 0 := by
  decide +kernel

/-- HostAccessKeepsRunningCommand. -/
theorem witness_HostAccessKeepsRunningCommand :
    (busyState (hostWrite32 0x008 6)).busy = true ∧
    (after (step (busyState (hostWrite32 0x008 6)))).schedule = [] := by decide +kernel

/-- ReadHasNoSideEffect, at the last offset. -/
theorem witness_ReadHasNoSideEffect :
    (host [hostRead32 0x3FC]).schedule = hostRead32 0x3FC :: [] ∧ 0x3FC < 0x400 ∧ 0x3FC % 4 = 0 := by decide +kernel

/-- WindowWriteReplacesOneWord: W15 word 7, IDLE and BUSY. -/
theorem witness_WindowWriteReplacesOneWord :
    (host [hostWrite32 0x3FC 1]).schedule = hostWrite32 (0x200 + 32 * (15#4).toNat + 4 * (7 : Fin 8).val) 1 :: [] ∧
    (host [hostWrite32 0x3FC 1]).busy = false ∧ (busyState (hostWrite32 0x3FC 1)).busy = true := by decide +kernel

/-- WindowBytesAreLittleEndian: the last byte. -/
theorem witness_WindowBytesAreLittleEndian :
    (regs 0x8000000000000000000000000000000000000000000000000000000000000000 0).windowByte (0x200 + 32 * 1 + 31) =
      0x80 := by decide +kernel

/-- ReservedStateReadsZeroIgnoresWrites: both ends of the reserved range. -/
theorem witness_ReservedStateReadsZeroIgnoresWrites :
    (host [hostWrite32 0x014 1]).schedule = hostWrite32 0x014 1 :: [] ∧
    (host [hostWrite32 0x1FC 1]).schedule = hostWrite32 0x1FC 1 :: [] ∧ 0x1FC < 0x200 ∧ 0x1FC % 4 = 0 ∧
    (0x1#32).getLsbD 0 = (0xFFFFFFFF#32).getLsbD 0 := by decide +kernel

/-- MalformedAccessGetsBusError: a narrow access, and an unaligned one. -/
theorem witness_MalformedAccessGetsBusError :
    (HostAddr.offset 0x3FF).windowOffset? = some 0x3FF ∧ (HostOp.read .byte).size ≠ .word ∧ 0x3FF % 4 ≠ 0 := by
  decide +kernel

/-- AccessOutsideWindowFaults: the first offset outside, at the window's own address form and at the bus's. -/
theorem witness_AccessOutsideWindowFaults :
    (host [hostRead32 0x400]).schedule = .host ⟨.offset 0x400, .read .word⟩ :: [] ∧ 0x400 ≤ 0x400 ∧
    (host [.host ⟨.bus (Config.fibcoreBase + 0x400), .read .word⟩]).schedule =
      .host ⟨.bus (Config.fibcoreBase + 0x400), .read .word⟩ :: [] ∧
    Config.fibcoreBase + 0x400 ≤ Config.fibcoreBase + 0x400 :=
  ⟨rfl, Nat.le_refl _, rfl, Nat.le_refl _⟩

/-- BusAddressReachesWindow, at the last offset. -/
theorem witness_BusAddressReachesWindow : 0x3FF < 0x400 := by decide

/-- CtrlWriteSetsInterruptEnable, StatusWriteClearsBits and InterruptLineFollowsStatus. -/
theorem witness_ControlWrites :
    (host [hostWrite32 0x004 1]).schedule = hostWrite32 0x004 1 :: [] ∧
    (host [hostWrite32 0x008 6]).schedule = hostWrite32 0x008 6 :: [] ∧
    (busyState .engine).schedule = .engine :: [] ∧ (busyState .engine).ph = .commit := by decide +kernel

/-- CommitStepWritesDestination and IdleEngineTakesNoStep. -/
theorem witness_EngineTurns :
    (busyState .engine).schedule = .engine :: [] ∧ (busyState .engine).ph = .commit ∧
    (host [.engine]).schedule = .engine :: [] ∧ (host [.engine]).ph = .idle ∧ State.reset.schedule = [] := by
  decide +kernel

/-- EngineTurnStopsOnlyWithoutEngine: both sides. -/
theorem witness_EngineTurnStopsOnlyWithoutEngine :
    ({ State.reset with ph := .loop, op := 0x10#8 }.ph = .loop ∧
      { State.reset with ph := .loop, op := 0x10#8 }.op ∉ engineOpcodes) ∧
    ¬ (State.reset.ph = .loop ∧ State.reset.op ∉ engineOpcodes) := by decide +kernel

/-- ResetAbandonsTheCommand. -/
theorem witness_ResetAbandonsTheCommand :
    (busyState .reset).schedule = .reset :: [] ∧ (busyState .reset).busy = true := by decide +kernel

/-- StatusInvariantKeptByStep: a BUSY state with the invariant, and its step. -/
theorem witness_StatusInvariantKeptByStep :
    StatusInv (busyState .engine) ∧ (after (step (busyState .engine))).done = true := by
  unfold StatusInv
  decide +kernel

/-- A state in LOOP, FIBC128 at K = 10. -/
def loopState : State := after (exec (.fibc128 0 1) (idx 10))

/-- EngineInvariantKeptByStep: a state in LOOP with the invariant, and its step. -/
theorem witness_EngineInvariantKeptByStep :
    EngineInv loopState ∧ step loopState = .next (after (step loopState)) :=
  ⟨⟨.fibc128, by decide +kernel, by decide +kernel, by
    refine ⟨?_, ?_, ?_, ?_, ?_, ?_, ?_⟩ <;> decide +kernel⟩, rfl⟩

/-- LoopStepIsOneIteration: a doubling engine, and an iterative one at its last iteration (I = N = 2). -/
theorem witness_LoopStepIsOneIteration :
    ({ loopState with schedule := [.engine] }.schedule = .engine :: [] ∧ loopState.ph = .loop ∧
      engineOf loopState.op = some .fibc128 ∧ 1 ≤ loopState.j.toNat) ∧
    ((after (exec (.fibs128 0 1) (idx 2))).ph = .loop ∧
      engineOf (after (exec (.fibs128 0 1) (idx 2))).op = some .fibs128 ∧
      (after (exec (.fibs128 0 1) (idx 2))).i.toNat + 1 < 2 ^ 64 ∧
      (after (exec (.fibs128 0 1) (idx 2))).n.toNat < (after (exec (.fibs128 0 1) (idx 2))).i.toNat + 1) := by
  decide +kernel

/-- UnreadLatchesAreUnobservable: two states that differ in latches only. -/
theorem witness_UnreadLatchesAreUnobservable : SameToHost State.reset { State.reset with sa := 5, j := 3, res := 9 } :=
  ⟨rfl, rfl, rfl, rfl, rfl, rfl, rfl, rfl, rfl, fun h => absurd h (by decide), fun h => absurd h (by decide)⟩

/-- The primitives' statements: an IDLE engine, a well-formed SETSI, and a command that is no engine command. -/
theorem witness_Primitives :
    State.reset.ph = .idle ∧ (Instr.setsi 0 (-524288)).WellFormed ∧ (Instr.mulw 1 1 1).indexReg = none := by
  decide +kernel

/-- The engine commands' statements: indexes at the boundaries of their clauses, none of them negative. -/
theorem witness_EngineCommands :
    (idx 1).ph = .idle ∧
    (∀ k ∈ [0, 1, 2, 3, 186, 187, 370, 371, 372, 1199, 0x7FFFFFFFFFFFFFFF],
      0 ≤ (((idx (BitVec.ofNat 256 k)).readW 1).extractLsb' 0 64).toInt ∧
      (((idx (BitVec.ofNat 256 k)).readW 1).extractLsb' 0 64).toNat = k) := by decide +kernel

/-- NegativeIndexIsRejected: the index -2^63. -/
theorem witness_NegativeIndexIsRejected :
    (idx 0x8000000000000000).ph = .idle ∧ (((idx 0x8000000000000000).readW 1).extractLsb' 0 64).toInt < 0 := by
  decide +kernel

/-- EngineResultDependsOnIndexOnly: the same index in different registers, with different bits above it. -/
theorem witness_EngineResultDependsOnIndexOnly :
    (idx 0x1000000000000000a).ph = .idle ∧ (regs 0 10).ph = .idle ∧
    ((idx 0x1000000000000000a).readW 1).extractLsb' 0 64 = ((regs 0 10).readW 2).extractLsb' 0 64 := by decide +kernel

/-- MultiplyLaws: operands whose high limbs are 0. -/
theorem witness_MultiplyLaws : hi 5 = 0 ∧ hi 0xffffffffffffffffffffffffffffffff = 0 := by decide +kernel

/-- AssembledImmediateIsTheNumeral, on both sides of the range's ends. -/
theorem witness_AssembledImmediateIsTheNumeral :
    "524288".toList = Nat.toDigits 10 524288 ∧ "0x80001".toList = '0' :: 'x' :: Nat.toDigits 16 524289 ∧
    assemble "SETSI w15, -524288".toList = .command (.setsi 15 (-524288)) ∧
    assemble "LI w15, -0x80001".toList = .refused := by decide +kernel

/-- AssembledCommandsAreWellFormed. -/
theorem witness_AssembledCommandsAreWellFormed :
    assemble "SETSI w1, 524287".toList = .command (.setsi 1 524287) := by decide +kernel

end Sys2Proof.Tests
end

section
/-! The state family (spec 10_state.md): what the engine's turns do to the state, the status registers' invariant, and
the latches no host can observe. -/

namespace Sys2Proof.Machine

/-! ### What a command, a step and an engine turn can do -/

/-- The start rule of an engine command (43_fib128.md R161, R163; 44_fib256.md R190, R193, R194). -/
def Engine.start (e : Engine) : State → State := if e.iterative then State.startIterative else State.startDoubling

theorem Engine.start_frame (e : Engine) : StartFrame e.start := by
  unfold Engine.start
  split
  · exact startIterative_frame
  · exact startDoubling_frame

/-- Every command's meaning is one acceptance: of a primitive, whose result is a function of the latched operands
(40_assign.md R103), or of the engine command that its opcode names (20_memory.md R62). -/
theorem exec_acceptance (i : Instr) :
    (∃ op rd rs1 rs2, ∃ result : U256 → U256 → U256 → U256,
      ∀ s, exec i s = acceptPrimitive op rd rs1 rs2 (fun t => result t.sa t.sb t.sd) s) ∨
    (∃ op rd rs1, ∃ e, engineOf op = some e ∧ ∀ s, exec i s = acceptEngine op rd rs1 e.start s) := by
  cases i with
  | sets rd rs1 => exact .inl ⟨_, _, _, _, fun a _ _ => setFromSigned (lo a), exec_sets rd rs1⟩
  | setsi rd imm => exact .inl ⟨_, _, _, _, fun _ _ _ => setFromSigned (immLimb imm), exec_setsi rd imm⟩
  | copy rd rs1 => exact .inl ⟨_, _, _, _, fun a _ _ => a, exec_copy rd rs1⟩
  | add rd rs1 rs2 => exact .inl ⟨_, _, _, _, fun a b _ => addU256 a b, exec_add rd rs1 rs2⟩
  | adds rd rs1 => exact .inl ⟨_, _, _, _, fun a _ d => addScalar d (lo a), exec_adds rd rs1⟩
  | sub rd rs1 rs2 => exact .inl ⟨_, _, _, _, fun a b _ => subU256 a b, exec_sub rd rs1 rs2⟩
  | mul rd rs1 rs2 => exact .inl ⟨_, _, _, _, fun a b _ => mul128 (lo a) (lo b), exec_mul rd rs1 rs2⟩
  | mulw rd rs1 rs2 => exact .inl ⟨_, _, _, _, fun a b _ => mulWide a b, exec_mulw rd rs1 rs2⟩
  | fibs128 rd rs1 => exact .inr ⟨_, _, _, .fibs128, rfl, exec_fibs128 rd rs1⟩
  | fibd128 rd rs1 => exact .inr ⟨_, _, _, .fibd128, rfl, exec_fibd128 rd rs1⟩
  | fibc128 rd rs1 => exact .inr ⟨_, _, _, .fibc128, rfl, exec_fibc128 rd rs1⟩
  | fibi256 rd rs1 => exact .inr ⟨_, _, _, .fibi256, rfl, exec_fibi256 rd rs1⟩
  | fibc256 rd rs1 => exact .inr ⟨_, _, _, .fibc256, rfl, exec_fibc256 rd rs1⟩
  | fibc256w rd rs1 => exact .inr ⟨_, _, _, .fibc256w, rfl, exec_fibc256w rd rs1⟩

/-- The meaning of a command is the NEG_INDEX rejection or an acceptance (20_memory.md R62, 60_exceptions.md R223). -/
theorem exec_cases (i : Instr) (s : State) :
    exec i s = .next (s.reject .negIndex) ∨ ∃ t, exec i s = .next t ∧ AcceptedFrom s t := by
  rcases exec_acceptance i with ⟨op, rd, rs1, rs2, result, hi⟩ | ⟨op, rd, rs1, e, -, hi⟩ <;> rw [hi]
  · exact .inr (acceptPrimitive_accepted ..)
  · rcases acceptEngine_cases op rd rs1 e.start s with ⟨-, hrej⟩ | ⟨hneg, -⟩
    · exact .inl hrej
    · exact .inr (acceptEngine_accepted op rd rs1 e.start e.start_frame s hneg)

theorem step_engine {s : State} {rest : List Move} (h : s.schedule = .engine :: rest) :
    step s = engineTurn { s with schedule := rest } := by simp [step, nextMove, h, takeMove]

theorem step_nil {s : State} (h : s.schedule = []) : step s = engineTurn s := by simp [step, nextMove, h]

theorem engineTurn_idle {s : State} (h : s.ph = .idle) : engineTurn s = .next s := by simp [engineTurn, h]

theorem engineTurn_commit {s : State} (h : s.ph = .commit) : engineTurn s = .next s.commitStep := by
  simp [engineTurn, h]

theorem engineTurn_loop {s : State} {e : Engine} (h : s.ph = .loop) (he : engineOf s.op = some e) :
    engineTurn s = .next (loopOf e s) := by simp [engineTurn, h, loopStep, he]

theorem engineTurn_stuck {s : State} (h : s.ph = .loop) (he : engineOf s.op = none) :
    engineTurn s = .fault .loopWithoutEngine := by simp [engineTurn, h, loopStep, he]

/-- The opcodes that name no engine command are those outside R85's six. -/
theorem engineOf_eq_none_iff (op : Opcode) : engineOf op = none ↔ op ∉ engineOpcodes := by
  unfold engineOf
  split <;> simp_all [engineOpcodes]

/-- Clearing a bit where a 1 is written, as a choice on the written bit. -/
theorem and_not_eq_ite (d b : Bool) : (d && !b) = if b then false else d := by cases b <;> simp

/-- Settles O20. -/
theorem ctrlWriteSetsInterruptEnable : Obligations.CtrlWriteSetsInterruptEnable := by
  intro s v rest h
  exact step_hostWrite32 s 0x004 v rest h (by decide) (by decide)

/-- Settles O21. -/
theorem statusWriteClearsBits : Obligations.StatusWriteClearsBits := by
  intro s v rest h
  refine ⟨_, step_hostWrite32 s 0x008 v rest h (by decide) (by decide), rfl, ?_, ?_, ?_, rfl, rfl⟩
  · exact and_not_eq_ite s.done (v.getLsbD 1)
  · exact and_not_eq_ite s.err (v.getLsbD 2)
  · exact and_not_eq_ite s.bwe (v.getLsbD 3)

/-- Settles O23. -/
theorem commitStepWritesDestination : Obligations.CommitStepWritesDestination := by
  intro s rest h hph
  refine ⟨{ s with schedule := rest }.commitStep, ?_, ?_, ?_, rfl, rfl, rfl, rfl⟩
  · exact (step_engine h).trans (engineTurn_commit hph)
  · exact readW_writeW_same s s.rd s.res
  · exact fun r hr => readW_writeW_ne s s.rd r s.res hr

/-- Settles O24. -/
theorem idleEngineTakesNoStep : Obligations.IdleEngineTakesNoStep := by
  exact ⟨fun s rest h hph => (step_engine h).trans (engineTurn_idle hph), fun s h => step_nil h⟩

/-- Settles O25, by the four cases of an engine turn. -/
theorem engineTurnStopsOnlyWithoutEngine : Obligations.EngineTurnStopsOnlyWithoutEngine := by
  refine fun s => ⟨fun ⟨hph, hop⟩ => engineTurn_stuck hph ((engineOf_eq_none_iff s.op).2 hop), fun hrun => ?_⟩
  rcases engineTurn_cases s with ⟨-, ht⟩ | ⟨e, -, -, ht⟩ | ⟨hph, hop, -⟩ | ⟨-, ht⟩
  · exact ⟨_, ht⟩
  · exact ⟨_, ht⟩
  · exact absurd ⟨hph, (engineOf_eq_none_iff s.op).1 hop⟩ hrun
  · exact ⟨_, ht⟩

/-! ### The status invariant (10_state.md R36, R37; 60_exceptions.md R222) -/

section Status

variable {s t : State}

/-- StatusInv reads ERR, CODE, DONE and BUSY only, and asks nothing of DONE in an IDLE engine. -/
theorem StatusInv.of_eq (h : StatusInv s) (herr : t.err = s.err) (hcode : t.code = s.code)
    (hdone : t.busy = true → t.done = false) : StatusInv t := by
  obtain ⟨hiff, hle, -⟩ := h
  exact ⟨by rw [herr, hcode]; exact hiff, by rw [hcode]; exact hle, hdone⟩

theorem StatusInv.done_of_busy (h : StatusInv s) (hb : s.busy = true) : s.done = false := by
  obtain ⟨-, -, hdone⟩ := h
  exact hdone hb

theorem statusInv_reset : StatusInv State.reset := by simp [StatusInv, State.reset, State.busy]

theorem statusInv_hardwareReset (s : State) : StatusInv s.hardwareReset := statusInv_reset

theorem StatusInv.reject (h : StatusInv s) (c : RejectCode) : StatusInv (s.reject c) := by
  refine ⟨?_, ?_, h.done_of_busy⟩ <;> cases c <;> simp [rejectBits]

theorem StatusInv.writeStatus (h : StatusInv s) (v : Word) : StatusInv (s.writeStatus v) := by
  obtain ⟨hiff, hle, hdone⟩ := h
  refine ⟨?_, ?_, fun hbusy => ?_⟩
  · rw [writeStatus_err, writeStatus_code, and_not_eq_ite]
    split
    · simp
    · exact hiff
  · rw [writeStatus_code]
    split
    · simp
    · exact hle
  · rw [writeStatus_done, hdone hbusy, Bool.false_and]

theorem StatusInv.accepted (h : StatusInv s) (ha : AcceptedFrom s t) : StatusInv t := by
  obtain ⟨hdone, -, -, herr, -, hcode, -⟩ := ha
  exact h.of_eq herr hcode fun _ => hdone

theorem StatusInv.exec (h : StatusInv s) {i : Instr} (hx : exec i s = .next t) : StatusInv t := by
  rcases exec_cases i s with hrej | ⟨u, hu, ha⟩
  · cases hrej.symm.trans hx
    exact h.reject _
  · cases hu.symm.trans hx
    exact h.accepted ha

theorem StatusInv.cmdWrite (h : StatusInv s) {v : Word} (hx : cmdWrite v s = .next t) : StatusInv t := by
  cases hb : s.busy with
  | true =>
    cases (cmdWrite_busy v s hb).symm.trans hx
    exact h.of_eq rfl rfl h.done_of_busy
  | false =>
    simp only [Machine.cmdWrite, hb, Bool.false_eq_true, if_false] at hx
    cases hd : decode v with
    | rejected c =>
      rw [hd] at hx
      cases hx
      exact h.reject c
    | command i =>
      rw [hd] at hx
      exact h.exec hx

theorem StatusInv.wWindowWrite (h : StatusInv s) (r : Reg) (j : Fin 8) (v : Word) :
    StatusInv (wWindowWrite r j v s) := by
  unfold Machine.wWindowWrite
  split
  · exact h.of_eq rfl rfl h.done_of_busy
  · exact h.of_eq rfl rfl h.done_of_busy

theorem StatusInv.windowWrite (h : StatusInv s) {g : WindowReg} {v : Word} (hx : windowWrite g v s = .next t) :
    StatusInv t := by
  cases g with
  | id | errcode | reserved => cases hx; exact h
  | ctrl => cases hx; exact h.of_eq rfl rfl h.done_of_busy
  | status => cases hx; exact h.writeStatus v
  | cmd => exact h.cmdWrite hx
  | wWord r j => cases hx; exact h.wWindowWrite r j v

theorem StatusInv.hostAccess (h : StatusInv s) {x : HostAccess} (hx : hostAccess x s = .next t) : StatusInv t := by
  unfold Machine.hostAccess at hx
  split at hx
  · cases hx
  · next off _ =>
    rcases windowAccess_cases off x.op s with ⟨-, -, ha⟩ | ⟨v, -, -, ha⟩ | ⟨-, ha⟩
    · cases ha.symm.trans hx
      exact h.of_eq rfl rfl h.done_of_busy
    · have hwritten : StatusInv { s with resp := .written } := h.of_eq rfl rfl h.done_of_busy
      exact hwritten.windowWrite (ha.symm.trans hx)
    · cases ha.symm.trans hx
      exact h.of_eq rfl rfl h.done_of_busy

theorem StatusInv.loopOf (h : StatusInv s) (hph : s.ph = .loop) (e : Engine) : StatusInv (loopOf e s) := by
  obtain ⟨-, -, -, -, -, -, -, -, -, -, hd, herr, -, hcode, -⟩ := loopOf_frame e s
  exact h.of_eq herr hcode fun _ => hd.trans (h.done_of_busy (by simp [State.busy, hph]))

theorem StatusInv.engineTurn (h : StatusInv s) (hx : engineTurn s = .next t) : StatusInv t := by
  rcases engineTurn_cases s with ⟨-, ht⟩ | ⟨e, hph, -, ht⟩ | ⟨-, -, ht⟩ | ⟨-, ht⟩
  · cases ht.symm.trans hx
    exact h
  · cases ht.symm.trans hx
    exact h.loopOf hph e
  · cases ht.symm.trans hx
  · cases ht.symm.trans hx
    exact h.of_eq rfl rfl (by simp [State.busy])

end Status

/-- Settles O29, by the cases of a step: each kind of move keeps the invariant. -/
theorem statusInvariantKeptByStep : Obligations.StatusInvariantKeptByStep := by
  intro s t h hx
  have htail (rest : List Move) : StatusInv { s with schedule := rest } := h.of_eq rfl rfl h.done_of_busy
  rcases step_cases s with ⟨-, hs⟩ | ⟨rest, -, hs⟩ | ⟨rest, -, hs⟩ | ⟨x, rest, -, hs⟩
  · exact h.engineTurn (hs.symm.trans hx)
  · exact (htail rest).engineTurn (hs.symm.trans hx)
  · cases hs.symm.trans hx
    exact statusInv_hardwareReset _
  · exact (htail rest).hostAccess (hs.symm.trans hx)

/-- Settles O28. -/
theorem statusInvariantAtReset : Obligations.StatusInvariantAtReset := statusInv_reset

end Sys2Proof.Machine
end

section
/-! One LOOP step of a running engine command, in plain modular arithmetic (spec 10_state.md R32). -/

namespace Sys2Proof.Machine

/-! ### The datapath as arithmetic (spec 41_addsub.md R120, R122; 42_multiply.md R140, R141) -/

theorem addU256_eq_add (x y : U256) : addU256 x y = x + y :=
  BitVec.eq_of_toNat_eq (by rw [toNat_addU256, BitVec.toNat_add])

theorem u256_not (y : U256) : u256 (~~~hi y) (~~~lo y) = ~~~y := by
  have := y.isLt
  apply BitVec.eq_of_toNat_eq
  simp only [toNat_u256, BitVec.toNat_not, toNat_hi, toNat_lo]
  omega

theorem addScalar_eq_add (x : U256) (l : Limb) : addScalar x l = x + l.setWidth 256 := by
  have := l.isLt
  apply BitVec.eq_of_toNat_eq
  rw [toNat_addScalar, BitVec.toNat_add, BitVec.toNat_setWidth_of_le (by decide)]

theorem subU256_eq_sub (x y : U256) : subU256 x y = x - y := by
  rw [subU256, u256_not, addScalar_eq_add, addU256_eq_add, BitVec.sub_eq_add_neg, BitVec.neg_eq_not_add]
  rfl

/-- A limb product is below 2^256, so that the high limb's last carry is never lost. -/
theorem limb_mul_lt (x y : Limb) : x.toNat * y.toNat < 2 ^ 256 := by
  have := Nat.mul_lt_mul'' x.isLt y.isLt
  omega

/-- The product of two numbers from their low and high parts at the weight `b`. -/
theorem mul_eq_parts (b x y : Nat) :
    x * y = x / b * (y / b) * (b * b) + (y % b * (x / b) + x % b * (y / b)) * b + x % b * (y % b) := by
  conv_lhs => rw [← Nat.div_add_mod x b, ← Nat.div_add_mod y b]
  ring

/-- The schoolbook multiplier is exact (R140). -/
theorem toNat_mul128 (x y : Limb) : (mul128 x y).toNat = x.toNat * y.toNat := by
  have hparts := mul_eq_parts (2 ^ 64) x.toNat y.toNat
  have hlt := limb_mul_lt x y
  have hab := (mulHalf (loHalf x) (loHalf y)).isLt
  have hbc := (mulHalf (loHalf y) (hiHalf x)).isLt
  have had := (mulHalf (loHalf x) (hiHalf y)).isLt
  simp only [mul128, toNat_u256, BitVec.toNat_add, BitVec.toNat_setWidth, toNat_shifted129, toNat_carry129,
    toNat_hiHalf]
  simp only [toNat_mulHalf, toNat_loHalf, toNat_hiHalf] at *
  generalize x.toNat % 2 ^ 64 * (y.toNat % 2 ^ 64) = ab at *
  generalize y.toNat % 2 ^ 64 * (x.toNat / 2 ^ 64) = bc at *
  generalize x.toNat % 2 ^ 64 * (y.toNat / 2 ^ 64) = ad at *
  generalize x.toNat / 2 ^ 64 * (y.toNat / 2 ^ 64) = cd at *
  generalize x.toNat * y.toNat = xy at *
  omega

theorem mul128_eq_mul (x y : Limb) : mul128 x y = x.setWidth 256 * y.setWidth 256 := by
  apply BitVec.eq_of_toNat_eq
  rw [toNat_mul128, BitVec.toNat_mul, BitVec.toNat_setWidth_of_le (by decide), BitVec.toNat_setWidth_of_le (by decide),
    Nat.mod_eq_of_lt (limb_mul_lt x y)]

/-- The cascaded multiplier is multiplication mod 2^256 (R141): the product of the high limbs has no weight there. -/
theorem mulWide_eq_mul (x y : U256) : mulWide x y = x * y := by
  have hparts := mul_eq_parts (2 ^ 128) x.toNat y.toNat
  apply BitVec.eq_of_toNat_eq
  simp only [mulWide, toNat_u256, BitVec.toNat_add, BitVec.toNat_mul, toNat_hi, toNat_lo, toNat_mul128, hparts]
  rw [Nat.mul_comm (y.toNat % 2 ^ 128)]
  generalize x.toNat % 2 ^ 128 * (y.toNat % 2 ^ 128) = p0
  generalize x.toNat % 2 ^ 128 * (y.toNat / 2 ^ 128) = p1
  generalize x.toNat / 2 ^ 128 * (y.toNat % 2 ^ 128) = p2
  generalize x.toNat / 2 ^ 128 * (y.toNat / 2 ^ 128) = p3
  omega

/-! ### The engines' iterations -/

/-- The doubling step of a doubling engine (43_fib128.md R162, 44_fib256.md R191); no iterative engine uses it. -/
def Engine.doublingStep : Engine → U256 → U256 → Bool → U256 × U256
  | .fibc256 => dstep256Lo
  | .fibc256w => dstep256Full
  | _ => dstep128Pair

/-- A LOOP step of an iterative engine (R161, R190). -/
theorem loopOf_iterative {e : Engine} (he : e.iterative = true) (s : State) :
    loopOf e s = s.iterate (nextPair e s).1 (nextPair e s).2 (nextPair e s).2 := by
  cases e with
  | fibs128 => rfl
  | fibi256 => simp only [loopOf, loopFibi256, nextPair, addU256_eq_add]
  | fibd128 | fibc128 | fibc256 | fibc256w => cases he

/-- A LOOP step of a doubling engine (R164). -/
theorem loopOf_doubling {e : Engine} (he : e.iterative = false) (s : State) :
    loopOf e s = s.double e.doublingStep := by
  cases e with
  | fibs128 | fibi256 => cases he
  | fibd128 | fibc128 | fibc256 | fibc256w => rfl

theorem dstep128_eq (a b : Limb) (bit : Bool) :
    dstep128 a b bit = doublingPair (a * (b + b - a)) (a * a + b * b) bit := rfl

theorem dstep256Lo_eq (a b : U256) (bit : Bool) :
    dstep256Lo a b bit = doublingPair ((lo a).setWidth 256 * (lo (b + b - a)).setWidth 256)
      ((lo a).setWidth 256 * (lo a).setWidth 256 + (lo b).setWidth 256 * (lo b).setWidth 256) bit := by
  simp only [dstep256Lo, doublingPair, addU256_eq_add, subU256_eq_sub, mul128_eq_mul]

theorem dstep256Full_eq (a b : U256) (bit : Bool) :
    dstep256Full a b bit = doublingPair (a * (b + b - a)) (a * a + b * b) bit := by
  simp only [dstep256Full, doublingPair, addU256_eq_add, subU256_eq_sub, mulWide_eq_mul]

/-- A doubling engine's step on the bit N[J - 1] is the iteration in plain arithmetic. -/
theorem doublingStep_eq_nextPair {e : Engine} (he : e.iterative = false) (s : State) :
    e.doublingStep s.a s.b (s.n.getLsbD (s.j.toNat - 1)) = nextPair e s := by
  cases e with
  | fibs128 | fibi256 => cases he
  | fibd128 | fibc128 => rfl
  | fibc256 => exact dstep256Lo_eq ..
  | fibc256w => exact dstep256Full_eq ..

/-- One iteration of an iterative engine, the last one being the first that takes I past N (R161). -/
theorem iterate_eq (s : State) (a b f : U256) :
    s.iterate a b f = { s with
      a := a, b := b, i := s.i + 1
      ph := if s.n.ult (s.i + 1) then .commit else s.ph
      res := if s.n.ult (s.i + 1) then f else s.res } := by
  unfold State.iterate State.engineResult
  dsimp only
  split <;> rfl

/-- One iteration of a doubling engine, the last one being the one that takes J to 0 (R164). -/
theorem double_eq (s : State) (d : U256 → U256 → Bool → U256 × U256) :
    s.double d = { s with
      a := (d s.a s.b (s.n.getLsbD (s.j - 1).toNat)).1
      b := (d s.a s.b (s.n.getLsbD (s.j - 1).toNat)).2
      j := s.j - 1
      ph := if s.j - 1 = 0 then .commit else s.ph
      res := if s.j - 1 = 0 then (d s.a s.b (s.n.getLsbD (s.j - 1).toNat)).2 else s.res } := by
  unfold State.double State.engineResult
  dsimp only
  split <;> rfl

/-- A step that keeps a LOOP step's frame has changed PH, RES, A, B, J and I at most. -/
theorem LoopFrame.restore {s t : State} (h : LoopFrame s t) :
    { t with ph := s.ph, res := s.res, a := s.a, b := s.b, j := s.j, i := s.i } = s := by
  obtain ⟨-, hw, hop, hrd, hsa, hsb, hsd, hk, hn, hie, hdone, herr, hbwe, hcode, hsch, hresp⟩ := h
  rw [hw, hop, hrd, hsa, hsb, hsd, hk, hn, hie, hdone, herr, hbwe, hcode, hsch, hresp]

/-- The loop counter I, below its last value, counts up. -/
theorem toNat_counter_succ {i : BitVec 64} (h : i.toNat + 1 < 2 ^ 64) : (i + 1).toNat = i.toNat + 1 := by bv_omega

/-- The bit position J, above 0, counts down. -/
theorem toNat_position_pred {j : BitVec 7} (h : 1 ≤ j.toNat) : (j - 1).toNat = j.toNat - 1 := by bv_omega

/-- An iterative engine's LOOP step: the pair, the counter, and the commit after the iteration for I = N (R161, R190). -/
theorem loopOf_iterative_spec {e : Engine} (he : e.iterative = true) {s : State} (hph : s.ph = .loop)
    (hi : s.i.toNat + 1 < 2 ^ 64) :
    ((loopOf e s).a, (loopOf e s).b) = nextPair e s ∧ (loopOf e s).i.toNat = s.i.toNat + 1 ∧ (loopOf e s).j = s.j ∧
      if s.n.toNat < s.i.toNat + 1 then (loopOf e s).ph = .commit ∧ (loopOf e s).res = (loopOf e s).b
      else (loopOf e s).ph = .loop ∧ (loopOf e s).res = s.res := by
  have hlast : s.n.ult (s.i + 1) = decide (s.n.toNat < s.i.toNat + 1) := by rw [BitVec.ult, toNat_counter_succ hi]
  rw [loopOf_iterative he s, iterate_eq]
  refine ⟨rfl, toNat_counter_succ hi, rfl, ?_⟩
  rw [hlast, hph]
  by_cases hcommit : s.n.toNat < s.i.toNat + 1 <;> simp [hcommit]

/-- A doubling engine's LOOP step: the pair, the bit position, and the commit after the step for J = 1 (R164). -/
theorem loopOf_doubling_spec {e : Engine} (he : e.iterative = false) {s : State} (hph : s.ph = .loop)
    (hj : 1 ≤ s.j.toNat) :
    ((loopOf e s).a, (loopOf e s).b) = nextPair e s ∧ (loopOf e s).j.toNat = s.j.toNat - 1 ∧ (loopOf e s).i = s.i ∧
      if s.j.toNat = 1 then (loopOf e s).ph = .commit ∧ (loopOf e s).res = (loopOf e s).b
      else (loopOf e s).ph = .loop ∧ (loopOf e s).res = s.res := by
  have hlast : s.j - 1 = 0 ↔ s.j.toNat = 1 := by bv_omega
  rw [loopOf_doubling he s, double_eq, toNat_position_pred hj, doublingStep_eq_nextPair he]
  refine ⟨rfl, rfl, rfl, ?_⟩
  simp only [hph, hlast]
  by_cases hcommit : s.j.toNat = 1 <;> simp [hcommit]

/-- Settles O57: the frame of every LOOP step, and the two kinds of engine. -/
theorem loopStepIsOneIteration : Obligations.LoopStepIsOneIteration := by
  intro s rest e hsch hph he
  refine ⟨loopOf e { s with schedule := rest }, (step_engine hsch).trans (engineTurn_loop hph he),
    (loopOf_frame e { s with schedule := rest }).restore, fun hit hi => ?_, fun hit hj => ?_⟩
  · exact loopOf_iterative_spec (s := { s with schedule := rest }) hit hph hi
  · exact loopOf_doubling_spec (s := { s with schedule := rest }) hit hph hj

end Sys2Proof.Machine
end

section
/-! The internal latches no command reads cannot be observed (spec 10_state.md R30): every operation takes states that
are the same to the host to outcomes that are. -/

namespace Sys2Proof.Machine

/-- Two states with the same registers outside the internal latches, PH aside. -/
def SameOutside (s t : State) : Prop :=
  s.w = t.w ∧ s.ie = t.ie ∧ s.done = t.done ∧ s.err = t.err ∧ s.bwe = t.bwe ∧ s.code = t.code ∧
  s.schedule = t.schedule ∧ s.resp = t.resp

/-- Two outcomes no host can tell apart: next states that are the same to the host, or one fault. -/
def SameOutcome (x y : Host.Outcome State Fault Refusal) : Prop :=
  (∀ s', x = .next s' → ∃ t', y = .next t' ∧ SameToHost s' t') ∧ (∀ f, x = .fault f → y = .fault f)

theorem sameOutcome_fault (f : Fault) : SameOutcome (.fault f) (.fault f) := ⟨nofun, fun _ hf => hf⟩

section Same

variable {s t : State}

theorem SameToHost.next (h : SameToHost s t) : SameOutcome (.next s) (.next t) :=
  ⟨fun _ hs => ⟨t, rfl, Host.Outcome.next.inj hs ▸ h⟩, nofun⟩

theorem SameToHost.outside (h : SameToHost s t) : SameOutside s t := by
  obtain ⟨hw, -, hie, hdone, herr, hbwe, hcode, hsch, hresp, -⟩ := h
  exact ⟨hw, hie, hdone, herr, hbwe, hcode, hsch, hresp⟩

theorem SameToHost.ph_eq (h : SameToHost s t) : s.ph = t.ph := by
  obtain ⟨-, hph, -⟩ := h
  exact hph

/-! #### The same to the host, phase by phase -/

theorem SameOutside.idle (h : SameOutside s t) (hs : s.ph = .idle) (ht : t.ph = .idle) : SameToHost s t := by
  obtain ⟨hw, hie, hdone, herr, hbwe, hcode, hsch, hresp⟩ := h
  exact ⟨hw, hs.trans ht.symm, hie, hdone, herr, hbwe, hcode, hsch, hresp, by simp [hs], by simp [hs]⟩

theorem SameOutside.commit (h : SameOutside s t) (hs : s.ph = .commit) (ht : t.ph = .commit) (hrd : s.rd = t.rd)
    (hres : s.res = t.res) : SameToHost s t := by
  obtain ⟨hw, hie, hdone, herr, hbwe, hcode, hsch, hresp⟩ := h
  exact ⟨hw, hs.trans ht.symm, hie, hdone, herr, hbwe, hcode, hsch, hresp, fun _ => ⟨hrd, hres⟩, by simp [hs]⟩

theorem SameOutside.loop (h : SameOutside s t) {e : Engine} (he : engineOf s.op = some e) (hs : s.ph = .loop)
    (ht : t.ph = .loop) (hop : s.op = t.op) (hrd : s.rd = t.rd) (hn : s.n = t.n) (ha : s.a = t.a) (hb : s.b = t.b)
    (hcount : if e.iterative then s.i = t.i else s.j = t.j) : SameToHost s t := by
  obtain ⟨hw, hie, hdone, herr, hbwe, hcode, hsch, hresp⟩ := h
  refine ⟨hw, hs.trans ht.symm, hie, hdone, herr, hbwe, hcode, hsch, hresp, by simp [hs],
    fun _ => ⟨hop, hrd, hn, ha, hb, fun e' he' => ?_⟩⟩
  cases he.symm.trans he'
  exact hcount

/-! #### Host operations -/

theorem SameToHost.withSchedule (h : SameToHost s t) (rest : List Move) :
    SameToHost { s with schedule := rest } { t with schedule := rest } := by
  obtain ⟨hw, hph, hie, hdone, herr, hbwe, hcode, -, hresp, hcommit, hloop⟩ := h
  exact ⟨hw, hph, hie, hdone, herr, hbwe, hcode, rfl, hresp, hcommit, hloop⟩

theorem SameToHost.withResp (h : SameToHost s t) (r : Response) :
    SameToHost { s with resp := r } { t with resp := r } := by
  obtain ⟨hw, hph, hie, hdone, herr, hbwe, hcode, hsch, -, hcommit, hloop⟩ := h
  exact ⟨hw, hph, hie, hdone, herr, hbwe, hcode, hsch, rfl, hcommit, hloop⟩

theorem SameToHost.reject (h : SameToHost s t) (c : RejectCode) : SameToHost (s.reject c) (t.reject c) := by
  obtain ⟨hw, hph, hie, hdone, -, hbwe, -, hsch, hresp, hcommit, hloop⟩ := h
  exact ⟨hw, hph, hie, hdone, rfl, hbwe, rfl, hsch, hresp, hcommit, hloop⟩

theorem SameToHost.discard (h : SameToHost s t) : SameToHost s.discard t.discard := by
  obtain ⟨hw, hph, hie, hdone, herr, -, hcode, hsch, hresp, hcommit, hloop⟩ := h
  exact ⟨hw, hph, hie, hdone, herr, rfl, hcode, hsch, hresp, hcommit, hloop⟩

theorem SameToHost.writeCtrl (h : SameToHost s t) (v : Word) : SameToHost (s.writeCtrl v) (t.writeCtrl v) := by
  obtain ⟨hw, hph, -, hdone, herr, hbwe, hcode, hsch, hresp, hcommit, hloop⟩ := h
  exact ⟨hw, hph, rfl, hdone, herr, hbwe, hcode, hsch, hresp, hcommit, hloop⟩

theorem SameToHost.writeStatus (h : SameToHost s t) (v : Word) : SameToHost (s.writeStatus v) (t.writeStatus v) := by
  obtain ⟨hw, hph, hie, hdone, herr, hbwe, hcode, hsch, hresp, hcommit, hloop⟩ := h
  exact ⟨hw, hph, hie, by simp only [writeStatus_done, hdone], by simp only [writeStatus_err, herr],
    by simp only [writeStatus_bwe, hbwe], by simp only [writeStatus_code, hcode], hsch, hresp, hcommit, hloop⟩

theorem SameToHost.writeW (h : SameToHost s t) (r : Reg) (v : U256) : SameToHost (s.writeW r v) (t.writeW r v) := by
  obtain ⟨hw, hph, hie, hdone, herr, hbwe, hcode, hsch, hresp, hcommit, hloop⟩ := h
  exact ⟨by simp only [writeW_w, hw], hph, hie, hdone, herr, hbwe, hcode, hsch, hresp, hcommit, hloop⟩

theorem SameToHost.readW_eq (h : SameToHost s t) (r : Reg) : s.readW r = t.readW r := by
  obtain ⟨hw, -⟩ := h
  exact readW_congr s t hw r

theorem SameToHost.busy_eq (h : SameToHost s t) : s.busy = t.busy := by rw [State.busy, State.busy, h.ph_eq]

/-- A host read answers the same in both states: no window register shows a latch (R51). -/
theorem SameToHost.hostRead_eq (h : SameToHost s t) (off : Nat) : s.hostRead off = t.hostRead off := by
  obtain ⟨-, hie, hdone, herr, hbwe, hcode, -⟩ := h.outside
  unfold State.hostRead
  cases windowReg off with
  | id | cmd | reserved => rfl
  | ctrl => simp only [State.readReg, State.ctrlWord, hie]
  | status => simp only [State.readReg, State.statusWord, hbwe, herr, hdone, h.busy_eq]
  | errcode => simp only [State.readReg, State.errcodeWord, hcode]
  | wWord r j => simp only [State.readReg, h.readW_eq r]

theorem SameToHost.wWindowWrite (h : SameToHost s t) (r : Reg) (j : Fin 8) (v : Word) :
    SameToHost (wWindowWrite r j v s) (wWindowWrite r j v t) := by
  unfold Machine.wWindowWrite
  rw [h.busy_eq, h.readW_eq r]
  split
  · exact h.discard
  · exact h.writeW r _

/-! #### Acceptance -/

/-- The latches at acceptance come from the W file, so what was latched before makes no difference (R62). -/
theorem SameToHost.acceptPrimitive (h : SameToHost s t) (op : Opcode) (rd rs1 rs2 : Reg)
    (result : U256 → U256 → U256 → U256) :
    SameOutcome (acceptPrimitive op rd rs1 rs2 (fun x => result x.sa x.sb x.sd) s)
      (acceptPrimitive op rd rs1 rs2 (fun x => result x.sa x.sb x.sd) t) := by
  obtain ⟨hw, hie, -, herr, hbwe, hcode, hsch, hresp⟩ := h.outside
  have hout : SameOutside (s.latch op rd rs1 rs2) (t.latch op rd rs1 rs2) :=
    ⟨hw, hie, rfl, herr, hbwe, hcode, hsch, hresp⟩
  rw [acceptPrimitive_spec, acceptPrimitive_spec]
  refine SameToHost.next (SameOutside.commit hout rfl rfl rfl ?_)
  simp only [latch_sa, latch_sb, latch_sd, h.readW_eq]

/-- The start rules set every latch that the engine's LOOP steps read (R161, R163). -/
theorem SameOutside.start (h : SameOutside s t) {e : Engine} (he : engineOf s.op = some e) (hop : s.op = t.op)
    (hrd : s.rd = t.rd) (hk : s.k = t.k) : SameToHost (e.start s) (e.start t) := by
  have result (k : BitVec 64) : SameToHost (s.engineResult (indexResult k)) (t.engineResult (indexResult k)) :=
    SameOutside.commit h rfl rfl hrd rfl
  cases hit : e.iterative with
  | true =>
    simp only [Engine.start, hit, if_true, State.startIterative, hk]
    split
    · exact result t.k
    · exact SameOutside.loop h he rfl rfl hop hrd rfl rfl rfl (by simp [hit])
  | false =>
    simp only [Engine.start, hit, Bool.false_eq_true, if_false, State.startDoubling, hk]
    split
    · exact result t.k
    · split
      · exact SameOutside.commit h rfl rfl hrd rfl
      · exact SameOutside.loop h he rfl rfl hop hrd rfl rfl rfl (by simp [hit])

theorem SameToHost.acceptEngine (h : SameToHost s t) {op : Opcode} {e : Engine} (he : engineOf op = some e)
    (rd rs1 : Reg) : SameOutcome (acceptEngine op rd rs1 e.start s) (acceptEngine op rd rs1 e.start t) := by
  obtain ⟨hw, hie, -, herr, hbwe, hcode, hsch, hresp⟩ := h.outside
  have hindex : s.index rs1 = t.index rs1 := by rw [State.index, State.index, h.readW_eq]
  have hout : SameOutside { s.latch op rd rs1 0 with k := s.index rs1 } { t.latch op rd rs1 0 with k := t.index rs1 } :=
    ⟨hw, hie, rfl, herr, hbwe, hcode, hsch, hresp⟩
  unfold Machine.acceptEngine
  rw [← hindex]
  split
  · exact (h.reject _).next
  · rw [hindex] at hout ⊢
    exact (hout.start he rfl rfl rfl).next

theorem SameToHost.exec (h : SameToHost s t) (i : Instr) : SameOutcome (exec i s) (exec i t) := by
  rcases exec_acceptance i with ⟨op, rd, rs1, rs2, result, hi⟩ | ⟨op, rd, rs1, e, he, hi⟩ <;> rw [hi, hi]
  · exact h.acceptPrimitive op rd rs1 rs2 result
  · exact h.acceptEngine he rd rs1

/-! #### Host accesses -/

theorem SameToHost.cmdWrite (h : SameToHost s t) (v : Word) : SameOutcome (cmdWrite v s) (cmdWrite v t) := by
  unfold Machine.cmdWrite
  rw [h.busy_eq]
  split
  · exact h.discard.next
  · cases decode v with
    | rejected c => exact (h.reject c).next
    | command i => exact h.exec i

theorem SameToHost.windowWrite (h : SameToHost s t) (g : WindowReg) (v : Word) :
    SameOutcome (windowWrite g v s) (windowWrite g v t) := by
  cases g with
  | id | errcode | reserved => exact h.next
  | ctrl => exact (h.writeCtrl v).next
  | status => exact (h.writeStatus v).next
  | cmd => exact h.cmdWrite v
  | wWord r j => exact (h.wWindowWrite r j v).next

theorem SameToHost.windowAccess (h : SameToHost s t) (off : Nat) (op : HostOp) :
    SameOutcome (windowAccess off op s) (windowAccess off op t) := by
  unfold Machine.windowAccess
  split
  · split
    · rw [h.hostRead_eq off]
      exact (h.withResp _).next
    · exact (h.withResp .written).windowWrite _ _
    · exact (h.withResp .busError).next
  · exact (h.withResp .busError).next

theorem SameToHost.hostAccess (h : SameToHost s t) (x : HostAccess) :
    SameOutcome (hostAccess x s) (hostAccess x t) := by
  unfold Machine.hostAccess
  split
  · exact sameOutcome_fault _
  · exact h.windowAccess _ _

/-! #### Engine turns -/

theorem SameToHost.loopOf (h : SameToHost s t) (hs : s.ph = .loop) {e : Engine} (he : engineOf s.op = some e) :
    SameToHost (loopOf e s) (loopOf e t) := by
  have hout := h.outside
  have ht : t.ph = .loop := h.ph_eq.symm.trans hs
  obtain ⟨-, -, -, -, -, -, -, -, -, -, hloop⟩ := h
  obtain ⟨hop, hrd, hn, ha, hb, hcounts⟩ := hloop hs
  have hcount := hcounts e he
  cases hit : e.iterative with
  | true =>
    have hi : s.i = t.i := by simpa [hit] using hcount
    have hpair : nextPair e s = nextPair e t := by
      cases e with
      | fibs128 | fibi256 => simp only [nextPair, ha, hb]
      | fibd128 | fibc128 | fibc256 | fibc256w => cases hit
    rw [loopOf_iterative hit s, loopOf_iterative hit t, iterate_eq, iterate_eq, hpair, hn, hi]
    by_cases hlast : t.n.ult (t.i + 1)
    · exact SameOutside.commit hout (if_pos hlast) (if_pos hlast) hrd ((if_pos hlast).trans (if_pos hlast).symm)
    · exact SameOutside.loop hout he ((if_neg hlast).trans hs) ((if_neg hlast).trans ht) hop hrd rfl rfl rfl
        (by simp [hit])
  | false =>
    have hj : s.j = t.j := by simpa [hit] using hcount
    rw [loopOf_doubling hit s, loopOf_doubling hit t, double_eq, double_eq, hn, ha, hb, hj]
    by_cases hlast : t.j - 1 = 0
    · exact SameOutside.commit hout (if_pos hlast) (if_pos hlast) hrd ((if_pos hlast).trans (if_pos hlast).symm)
    · exact SameOutside.loop hout he ((if_neg hlast).trans hs) ((if_neg hlast).trans ht) hop hrd rfl rfl rfl
        (by simp [hit])

theorem SameToHost.commitStep (h : SameToHost s t) (hs : s.ph = .commit) : SameToHost s.commitStep t.commitStep := by
  obtain ⟨hw, -, hie, -, herr, hbwe, hcode, hsch, hresp, hcommit, -⟩ := h
  obtain ⟨hrd, hres⟩ := hcommit hs
  have hw' : s.commitStep.w = t.commitStep.w := by simp only [commitStep_w, writeW_w, hw, hrd, hres]
  exact SameOutside.idle ⟨hw', hie, rfl, herr, hbwe, hcode, hsch, hresp⟩ rfl rfl

theorem SameToHost.engineTurn (h : SameToHost s t) : SameOutcome (engineTurn s) (engineTurn t) := by
  have hph := h.ph_eq
  cases hs : s.ph with
  | idle =>
    rw [engineTurn_idle hs, engineTurn_idle (hph.symm.trans hs)]
    exact h.next
  | commit =>
    rw [engineTurn_commit hs, engineTurn_commit (hph.symm.trans hs)]
    exact (h.commitStep hs).next
  | loop =>
    have hop : s.op = t.op := by
      obtain ⟨-, -, -, -, -, -, -, -, -, -, hloop⟩ := h
      exact (hloop hs).1
    cases he : engineOf s.op with
    | none =>
      rw [engineTurn_stuck hs he, engineTurn_stuck (hph.symm.trans hs) (hop ▸ he)]
      exact sameOutcome_fault _
    | some e =>
      rw [engineTurn_loop hs he, engineTurn_loop (hph.symm.trans hs) (hop ▸ he)]
      exact (h.loopOf hs he).next

theorem SameToHost.hardwareReset (h : SameToHost s t) : SameToHost s.hardwareReset t.hardwareReset := by
  obtain ⟨-, -, -, -, -, -, hsch, -⟩ := h.outside
  exact SameOutside.idle ⟨rfl, rfl, rfl, rfl, rfl, rfl, hsch, rfl⟩ rfl rfl

theorem SameToHost.takeMove (h : SameToHost s t) (m : Move) : SameOutcome (takeMove m s) (takeMove m t) := by
  cases m with
  | host x => exact h.hostAccess x
  | engine => exact h.engineTurn
  | reset => exact h.hardwareReset.next

theorem SameToHost.step (h : SameToHost s t) : SameOutcome (step s) (step t) := by
  obtain ⟨-, -, -, -, -, -, hsch, -⟩ := h.outside
  unfold Machine.step nextMove
  rw [← hsch]
  split
  · exact h.engineTurn
  · next m rest _ => exact (h.withSchedule rest).takeMove m

end Same

/-- Settles O32. -/
theorem unreadLatchesAreUnobservable : Obligations.UnreadLatchesAreUnobservable := fun _ _ h => h.step

end Sys2Proof.Machine
end

section
/-! The host window (spec 20_memory.md R50 to R59): what each offset reads, what an access of each kind does, and what
no access can do while a command runs. -/

namespace Sys2Proof.Machine

/-! ### What the window reads -/

/-- STATUS as a number: its four bits by weight (10_state.md R36). -/
theorem statusWord_eq_weights (s : State) :
    s.statusWord = BitVec.ofNat 32 (s.busy.toNat + 2 * s.done.toNat + 4 * s.err.toNat + 8 * s.bwe.toNat) := by
  apply BitVec.eq_of_toNat_eq
  have hbusy := s.busy.toNat_lt
  have hdone := s.done.toNat_lt
  have herr := s.err.toNat_lt
  have hbwe := s.bwe.toNat_lt
  simp only [State.statusWord, BitVec.toNat_setWidth, toNat_append_mul, BitVec.toNat_ofBool, BitVec.toNat_ofNat]
  omega

/-- CTRL as a number (10_state.md R35). -/
theorem ctrlWord_eq_ofNat (s : State) : s.ctrlWord = BitVec.ofNat 32 s.ie.toNat := by
  apply BitVec.eq_of_toNat_eq
  simp only [State.ctrlWord, BitVec.toNat_setWidth, BitVec.toNat_ofBool, BitVec.toNat_ofNat]

/-- ERRCODE as a number (10_state.md R37). -/
theorem errcodeWord_eq_ofNat (s : State) : s.errcodeWord = BitVec.ofNat 32 s.code.toNat := by
  rw [State.errcodeWord, BitVec.ofNat_toNat]

/-- The bits a register does not have read 0 (R55). -/
theorem getLsbD_setWidth_of_ge {n : Nat} (x : BitVec n) {b : Nat} (h : n ≤ b) : (x.setWidth 32).getLsbD b = false := by
  rw [BitVec.getLsbD_setWidth, BitVec.getLsbD_of_ge x b h, Bool.and_false]

theorem windowReg_reserved {off : Nat} (hlo : 0x014 ≤ off) (hhi : off < 0x200) : windowReg off = .reserved := by
  unfold windowReg
  repeat rw [if_neg (by omega)]
  rw [if_pos hhi]

theorem hostRead_reserved (s : State) {off : Nat} (hlo : 0x014 ≤ off) (hhi : off < 0x200) : s.hostRead off = 0 := by
  rw [State.hostRead, windowReg_reserved hlo hhi, State.readReg]

theorem hostRead_wOffset (s : State) (r : Reg) (j : Fin 8) : s.hostRead (wOffset r j) = wordOf (s.readW r) j := by
  rw [State.hostRead, windowReg_wOffset, State.readReg]

/-- Settles O13. -/
theorem windowReadsRegisters : Obligations.WindowReadsRegisters := by
  intro s
  exact ⟨rfl, ctrlWord_eq_ofNat s, statusWord_eq_weights s, errcodeWord_eq_ofNat s, rfl,
    fun _ hlo hhi => hostRead_reserved s hlo hhi, hostRead_wOffset s⟩

/-- A byte of a word of a W register is a byte of the register (R52, R56). -/
theorem extractByte_wordOf (v : U256) (j : Fin 8) {c : Nat} (hc : c < 4) :
    (wordOf v j).extractLsb' (8 * c) 8 = v.extractLsb' (8 * (4 * j.val + c)) 8 := by
  apply BitVec.eq_of_getLsbD_eq
  intro i hi
  have hin : 8 * c + i < 32 := by omega
  have hpos : 32 * j.val + (8 * c + i) = 8 * (4 * j.val + c) + i := by ring
  simp only [wordOf, BitVec.getLsbD_extractLsb', hin, decide_true, Bool.true_and, hpos]

theorem windowByte_wOffset (s : State) (r : Reg) (j : Fin 8) {c : Nat} (hc : c < 4) :
    s.windowByte (wOffset r j + c) = (s.readW r).extractLsb' (8 * (4 * j.val + c)) 8 := by
  have hbyte : (wOffset r j + c) % 4 = c := by
    simp only [wOffset]
    omega
  rw [State.windowByte, hbyte, Nat.add_sub_cancel, hostRead_wOffset, extractByte_wordOf _ j hc]

/-- Settles O15: byte `m` lies in word `m / 4` of the register, at byte `m % 4` of it. -/
theorem windowBytesAreLittleEndian : Obligations.WindowBytesAreLittleEndian := by
  intro s r m hm
  have hoff : wOffset r ⟨m / 4, by omega⟩ + m % 4 = 0x200 + 32 * r.toNat + m := by
    simp only [wOffset]
    omega
  have hbyte := windowByte_wOffset s r ⟨m / 4, by omega⟩ (Nat.mod_lt m (by decide : 0 < 4))
  rwa [hoff, Nat.div_add_mod] at hbyte

/-! ### Which accesses reach the window, and what a step makes of each -/

/-- A host access as the next move. -/
theorem step_host {s : State} {x : HostAccess} {rest : List Move} (h : s.schedule = .host x :: rest) :
    step s = hostAccess x { s with schedule := rest } := by simp [step, nextMove, h, takeMove]

theorem windowOffset?_offset (off : Nat) :
    (HostAddr.offset off).windowOffset? = if off < 0x400 then some off else none := rfl

/-- R50: the bus addresses of the window are the 1024 from FIBCORE_BASE. -/
theorem windowOffset?_bus_base_add (off : Nat) :
    (HostAddr.bus (Config.fibcoreBase + off)).windowOffset? = (HostAddr.offset off).windowOffset? := by
  simp [HostAddr.windowOffset?]

theorem windowOffset?_bus_outside {addr : Nat}
    (h : addr < Config.fibcoreBase ∨ Config.fibcoreBase + 0x400 ≤ addr) :
    (HostAddr.bus addr).windowOffset? = none := by
  have hnot : ¬ (Config.fibcoreBase ≤ addr ∧ addr - Config.fibcoreBase < 0x400) := by omega
  exact if_neg hnot

/-- Where an access reaches decides what it does: two addresses of one window offset cannot be told apart (R50). -/
theorem hostAccess_congr {x y : HostAddr} (h : x.windowOffset? = y.windowOffset?) (op : HostOp) :
    hostAccess ⟨x, op⟩ = hostAccess ⟨y, op⟩ := by
  funext s
  simp only [hostAccess, h]

theorem hostAccess_outside {x : HostAccess} (h : x.addr.windowOffset? = none) (s : State) :
    hostAccess x s = .fault .outsideWindow := by simp only [hostAccess, h]

theorem hostAccess_inside {x : HostAccess} {off : Nat} (h : x.addr.windowOffset? = some off) (s : State) :
    hostAccess x s = windowAccess off x.op s := by simp only [hostAccess, h]

/-- Settles O19. -/
theorem busAddressReachesWindow : Obligations.BusAddressReachesWindow := by
  intro s op off rest _
  rw [step_host rfl, step_host rfl, hostAccess_congr (windowOffset?_bus_base_add off)]

/-- Settles O18. -/
theorem accessOutsideWindowFaults : Obligations.AccessOutsideWindowFaults := by
  intro s op rest
  refine ⟨fun off h hoff => ?_, fun addr h haddr => ?_⟩
  · rw [step_host h, hostAccess_outside]
    rw [windowOffset?_offset, if_neg (by omega)]
  · rw [step_host h, hostAccess_outside (windowOffset?_bus_outside haddr)]

/-- Settles O17: of the three things an access in the window can be, the read and the write of a register are 32 bits
wide and aligned. -/
theorem malformedAccessGetsBusError : Obligations.MalformedAccessGetsBusError := by
  intro s x off rest h hoff hbad
  rw [step_host h, hostAccess_inside hoff]
  rcases windowAccess_cases off x.op { s with schedule := rest } with ⟨hal, hop, -⟩ | ⟨v, hal, hop, -⟩ | ⟨-, hbus⟩
  · simp [hal, hop, HostOp.size] at hbad
  · simp [hal, hop, HostOp.size, WriteData.size] at hbad
  · exact hbus

/-- Settles O12. -/
theorem readHasNoSideEffect : Obligations.ReadHasNoSideEffect := by
  intro s off rest h hlt hal
  exact step_hostRead32 s off rest h hlt hal

/-! ### What a write changes -/

/-- Settles O16, register by register. -/
theorem reservedStateReadsZeroIgnoresWrites : Obligations.ReservedStateReadsZeroIgnoresWrites := by
  intro s v v' rest
  have hstep (off : Nat) (u : Word) (hlt : off < 0x400) (hal : off % 4 = 0) :
      step { s with schedule := hostWrite32 off u :: rest } =
        windowWrite (windowReg off) u (s.served rest .written) :=
    step_hostWrite32 { s with schedule := hostWrite32 off u :: rest } off u rest rfl hlt hal
  refine ⟨fun off h hal hlo hhi => ⟨hostRead_reserved s hlo hhi, ?_⟩,
    fun b => ⟨fun hb => ?_, fun hb => ?_, fun hb => ?_⟩, fun h0 => ?_, fun h1 h2 h3 => ?_, ?_, rfl, ?_⟩
  · rw [step_hostWrite32 s off v rest h (by omega) hal, windowReg_reserved hlo hhi, windowWrite]
  · exact getLsbD_setWidth_of_ge _ hb
  · exact getLsbD_setWidth_of_ge _ hb
  · exact getLsbD_setWidth_of_ge _ hb
  · rw [hstep _ v (by decide) (by decide), hstep _ v' (by decide) (by decide)]
    exact congrArg Host.Outcome.next (by simp only [State.writeCtrl, h0])
  · rw [hstep _ v (by decide) (by decide), hstep _ v' (by decide) (by decide)]
    exact congrArg Host.Outcome.next (by simp only [State.writeStatus, h1, h2, h3])
  · exact hstep _ v (by decide) (by decide)
  · exact hstep _ v (by decide) (by decide)

/-- R54 bit by bit: the new word at its 32 bits, the old value at the other 224. -/
theorem getLsbD_setWordOf (v : U256) (j : Fin 8) (x : Word) {b : Nat} (hb : b < 256) :
    (setWordOf v j x).getLsbD b =
      if 32 * j.val ≤ b ∧ b < 32 * j.val + 32 then x.getLsbD (b - 32 * j.val) else v.getLsbD b := by
  have hmask : 0xFFFFFFFF#256 = (BitVec.allOnes 32).setWidth 256 := by decide
  simp only [setWordOf, hmask, BitVec.getLsbD_or, BitVec.getLsbD_and, BitVec.getLsbD_not, BitVec.getLsbD_shiftLeft,
    BitVec.getLsbD_setWidth, BitVec.getLsbD_allOnes, hb, decide_true, Bool.true_and]
  by_cases hlo : 32 * j.val ≤ b
  · by_cases hhi : b < 32 * j.val + 32
    · have hin : b - 32 * j.val < 32 := by omega
      have hin' : b - 32 * j.val < 256 := by omega
      simp [hlo, hhi, hin, hin', Nat.not_lt_of_le hlo]
    · have hout : ¬ b - 32 * j.val < 32 := by omega
      simp [hhi, hout, BitVec.getLsbD_of_ge x _ (by omega : 32 ≤ b - 32 * j.val)]
  · simp [hlo, Nat.lt_of_not_le hlo]

theorem wOffset_lt (r : Reg) (j : Fin 8) : wOffset r j < 0x400 := by
  have hr := r.isLt
  have hj := j.isLt
  simp only [wOffset]
  omega

theorem wOffset_aligned (r : Reg) (j : Fin 8) : wOffset r j % 4 = 0 := by
  simp only [wOffset]
  omega

/-- A 32-bit write to word `j` of `W[r]`, as the next move. -/
theorem step_wWindowWrite {s : State} {r : Reg} {j : Fin 8} {v : Word} {rest : List Move}
    (h : s.schedule = hostWrite32 (wOffset r j) v :: rest) :
    step s = .next (wWindowWrite r j v (s.served rest .written)) := by
  rw [step_hostWrite32 s _ v rest h (wOffset_lt r j) (wOffset_aligned r j), windowReg_wOffset, windowWrite]

theorem wWindowWrite_idle {s : State} (h : s.busy = false) (r : Reg) (j : Fin 8) (v : Word) :
    wWindowWrite r j v s = s.writeW r (setWordOf (s.readW r) j v) := by simp [wWindowWrite, h]

theorem wWindowWrite_busy {s : State} (h : s.busy = true) (r : Reg) (j : Fin 8) (v : Word) :
    wWindowWrite r j v s = s.discard := by simp [wWindowWrite, h]

/-- Settles O14. -/
theorem windowWriteReplacesOneWord : Obligations.WindowWriteReplacesOneWord := by
  intro s r j v rest h
  rw [step_wWindowWrite h]
  refine ⟨fun hidle => ⟨_, rfl, ?_⟩,
    fun hbusy => congrArg _ (wWindowWrite_busy (s := s.served rest .written) hbusy r j v)⟩
  rw [wWindowWrite_idle (s := s.served rest .written) hidle]
  refine ⟨fun b hb => ?_, fun r' hr' => ?_, rfl⟩
  · rw [readW_writeW_same, getLsbD_setWordOf _ j v hb, readW_served]
  · rw [readW_writeW_ne _ r r' _ hr', readW_served]

/-! ### While a command runs (R64, R65) -/

/-- A write to CMD or to the W window is discarded while BUSY (R64). -/
theorem windowWrite_discard {s : State} (hbusy : s.busy = true) {g : WindowReg} (hg : g = .cmd ∨ ∃ r j, g = .wWord r j)
    (v : Word) : windowWrite g v s = .next s.discard := by
  rcases hg with rfl | ⟨r, j, rfl⟩
  · exact cmdWrite_busy v s hbusy
  · exact congrArg _ (wWindowWrite_busy hbusy r j v)

/-- Every offset from 0x200 up is a word of a W register (R51). -/
theorem windowReg_wWindow {off : Nat} (h : 0x200 ≤ off) : ∃ r j, windowReg off = .wWord r j := by
  unfold windowReg
  repeat rw [if_neg (by omega)]
  exact ⟨_, _, rfl⟩

/-- Settles O10. -/
theorem busyWritesAreDiscarded : Obligations.BusyWritesAreDiscarded := by
  intro s off v rest h hbusy hoff
  have hport : off < 0x400 ∧ off % 4 = 0 ∧ (windowReg off = .cmd ∨ ∃ r j, windowReg off = .wWord r j) := by
    rcases hoff with rfl | ⟨hlo, hhi, hal⟩
    · exact ⟨by decide, by decide, .inl rfl⟩
    · exact ⟨hhi, hal, .inr (windowReg_wWindow hlo)⟩
  obtain ⟨hlt, hal, hreg⟩ := hport
  rw [step_hostWrite32 s off v rest h hlt hal]
  exact windowWrite_discard (s := s.served rest .written) hbusy hreg v

/-- `t` has the running command of `s`: PH, every internal register (10_state.md R25 to R29) and the W file it was
accepted with. -/
def CommandKept (s t : State) : Prop :=
  t.w = s.w ∧ t.ph = s.ph ∧ t.op = s.op ∧ t.rd = s.rd ∧ t.sa = s.sa ∧ t.sb = s.sb ∧ t.sd = s.sd ∧ t.k = s.k ∧
  t.res = s.res ∧ t.a = s.a ∧ t.b = s.b ∧ t.n = s.n ∧ t.j = s.j ∧ t.i = s.i

theorem commandKept_refl (s : State) : CommandKept s s :=
  ⟨rfl, rfl, rfl, rfl, rfl, rfl, rfl, rfl, rfl, rfl, rfl, rfl, rfl, rfl⟩

theorem commandKept_windowWrite {s t : State} (hbusy : s.busy = true) {g : WindowReg} {v : Word}
    (hx : windowWrite g v s = .next t) : CommandKept s t := by
  cases g with
  | id | errcode | reserved | ctrl | status =>
    cases hx
    exact commandKept_refl s
  | cmd =>
    cases (windowWrite_discard hbusy (.inl rfl) v).symm.trans hx
    exact commandKept_refl s
  | wWord r j =>
    cases (windowWrite_discard hbusy (.inr ⟨r, j, rfl⟩) v).symm.trans hx
    exact commandKept_refl s

theorem commandKept_hostAccess {s t : State} (hbusy : s.busy = true) {x : HostAccess}
    (hx : hostAccess x s = .next t) : CommandKept s t := by
  cases hoff : x.addr.windowOffset? with
  | none => cases (hostAccess_outside hoff s).symm.trans hx
  | some off =>
    rw [hostAccess_inside hoff] at hx
    rcases windowAccess_cases off x.op s with ⟨-, -, hread⟩ | ⟨v, -, -, hwrite⟩ | ⟨-, hbus⟩
    · cases hread.symm.trans hx
      exact commandKept_refl s
    · exact commandKept_windowWrite (s := { s with resp := .written }) hbusy (hwrite.symm.trans hx)
    · cases hbus.symm.trans hx
      exact commandKept_refl s

/-- Settles O11. -/
theorem hostAccessKeepsRunningCommand : Obligations.HostAccessKeepsRunningCommand := by
  intro s t x rest h hbusy hx
  exact commandKept_hostAccess (s := { s with schedule := rest }) hbusy ((step_host h).symm.trans hx)

end Sys2Proof.Machine
end

section
/-! The command port (spec 20_memory.md R62, R63): the decoder against the fields of a word, and what acceptance and
rejection do. -/

namespace Sys2Proof.Machine

/-! ### The rows of the opcode map (30_encoding.md R85) -/

/-- What the decoder and the machine make of an opcode: no command, or commands of one format, each of them well formed
and one acceptance under that opcode. -/
inductive OpcodeRow (v : Word) (opc : Opcode) : Decoded → Prop
  | unlisted (h : opc ∉ listedOpcodes) : OpcodeRow v opc (.rejected .illegalOpcode)
  | r3 (mk : Reg → Reg → Reg → Instr) (result : State → U256) (hfmt : formatOf opc = some .r3)
      (hop : opc ∉ engineOpcodes) (hwf : ∀ rd rs1 rs2, (mk rd rs1 rs2).WellFormed)
      (hexec : ∀ rd rs1 rs2 s, exec (mk rd rs1 rs2) s = acceptPrimitive opc rd rs1 rs2 result s) :
      OpcodeRow v opc (decodeR3 v mk)
  | r2 (mk : Reg → Reg → Instr) (result : State → U256) (hfmt : formatOf opc = some .r2)
      (hop : opc ∉ engineOpcodes) (hwf : ∀ rd rs1, (mk rd rs1).WellFormed)
      (hexec : ∀ rd rs1 s, exec (mk rd rs1) s = acceptPrimitive opc rd rs1 0 result s) :
      OpcodeRow v opc (decodeR2 v mk)
  | engine (mk : Reg → Reg → Instr) (e : Engine) (hfmt : formatOf opc = some .r2)
      (hop : opc ∈ engineOpcodes) (hwf : ∀ rd rs1, (mk rd rs1).WellFormed)
      (hexec : ∀ rd rs1 s, exec (mk rd rs1) s = acceptEngine opc rd rs1 e.start s) :
      OpcodeRow v opc (decodeR2 v mk)
  | i20 (hopc : opc = 0x02#8) : OpcodeRow v opc (decodeI20 v .setsi)

/-- Every word lies in the row of its opcode. -/
theorem opcodeRow_decode (v : Word) : OpcodeRow v (fieldOpc v) (decode v) := by
  unfold decode
  split
  · next h => rw [h]; exact .r2 .sets _ (by decide) (by decide) (fun _ _ => rfl) exec_sets
  · next h => rw [h]; exact .i20 rfl
  · next h => rw [h]; exact .r2 .copy _ (by decide) (by decide) (fun _ _ => rfl) exec_copy
  · next h => rw [h]; exact .r3 .add _ (by decide) (by decide) (fun _ _ _ => rfl) exec_add
  · next h => rw [h]; exact .r2 .adds _ (by decide) (by decide) (fun _ _ => rfl) exec_adds
  · next h => rw [h]; exact .r3 .sub _ (by decide) (by decide) (fun _ _ _ => rfl) exec_sub
  · next h => rw [h]; exact .r3 .mul _ (by decide) (by decide) (fun _ _ _ => rfl) exec_mul
  · next h => rw [h]; exact .r3 .mulw _ (by decide) (by decide) (fun _ _ _ => rfl) exec_mulw
  · next h => rw [h]; exact .engine .fibs128 .fibs128 (by decide) (by decide) (fun _ _ => rfl) exec_fibs128
  · next h => rw [h]; exact .engine .fibd128 .fibd128 (by decide) (by decide) (fun _ _ => rfl) exec_fibd128
  · next h => rw [h]; exact .engine .fibc128 .fibc128 (by decide) (by decide) (fun _ _ => rfl) exec_fibc128
  · next h => rw [h]; exact .engine .fibi256 .fibi256 (by decide) (by decide) (fun _ _ => rfl) exec_fibi256
  · next h => rw [h]; exact .engine .fibc256 .fibc256 (by decide) (by decide) (fun _ _ => rfl) exec_fibc256
  · next h => rw [h]; exact .engine .fibc256w .fibc256w (by decide) (by decide) (fun _ _ => rfl) exec_fibc256w
  · exact .unlisted (by simp_all [listedOpcodes])

theorem listed_of_formatOf {opc : Opcode} {f : Format} (h : formatOf opc = some f) : opc ∈ listedOpcodes := by
  by_contra hnot
  simp_all [formatOf, listedOpcodes]

/-- The immediate of a word is one that the 20-bit field holds (R83). -/
theorem immFits_fieldImm (v : Word) : immFits (fieldImm v).toInt :=
  ⟨BitVec.le_toInt _, Int.le_of_lt_add_one BitVec.toInt_lt⟩

/-- What a word decodes to is well formed (R83, R84). -/
theorem wellFormed_of_decode {v : Word} {i : Instr} (h : decode v = .command i) : i.WellFormed := by
  have hrow := opcodeRow_decode v
  rw [h] at hrow
  generalize hd : Decoded.command i = d at hrow
  cases hrow with
  | unlisted => cases hd
  | r3 mk _ _ _ hwf =>
    unfold decodeR3 at hd
    split at hd
    · cases hd; exact hwf _ _ _
    · cases hd
  | r2 mk _ _ _ hwf | engine mk _ _ _ hwf =>
    unfold decodeR2 at hd
    split at hd
    · cases hd; exact hwf _ _
    · cases hd
  | i20 =>
    cases hd
    exact decide_eq_true (immFits_fieldImm v)

/-- A CMD write, as the next move. -/
theorem step_cmdWrite {s : State} {v : Word} {rest : List Move} (h : s.schedule = hostWrite32 0x010 v :: rest) :
    step s = cmdWrite v (s.served rest .written) :=
  step_hostWrite32 s 0x010 v rest h (by decide) (by decide)

/-- Settles O6. -/
theorem stepRunsDecodedCommand : Obligations.StepRunsDecodedCommand := by
  intro s v rest i h hph hd
  refine ⟨wellFormed_of_decode hd, ?_⟩
  rw [step_cmdWrite h, cmdWrite_idle v (s.served rest .written) hph, hd]

/-! ### Rejection causes, row by row (R87) -/

/-- R26 and R222 read the index's sign alike: as a signed number, and by its most significant bit. -/
theorem indexNegative_iff (k : BitVec 64) : k.toInt < 0 ↔ indexNegative k = true := by
  rw [indexNegative, BitVec.msb_eq_toInt, decide_eq_true_iff]

/-- R87's checks in their order, through the fields of the word. -/
theorem rejectCause_eq (v : Word) (s : State) :
    rejectCause v s =
      if fieldOpc v ∉ listedOpcodes then some .illegalOpcode
      else if formatOf (fieldOpc v) = some .r3 ∧ zeroR3 v ≠ 0 then some .reservedField
      else if formatOf (fieldOpc v) = some .r2 ∧ zeroR2 v ≠ 0 then some .reservedField
      else if fieldOpc v ∈ engineOpcodes ∧ indexNegative (s.index (fieldRs1 v)) = true then some .negIndex
      else none := by
  simp only [← indexNegative_iff]
  rfl

theorem rejectCause_unlisted {v : Word} (h : fieldOpc v ∉ listedOpcodes) (s : State) :
    rejectCause v s = some .illegalOpcode := if_pos h

theorem rejectCause_r3 {v : Word} (hfmt : formatOf (fieldOpc v) = some .r3) (hop : fieldOpc v ∉ engineOpcodes)
    (s : State) : rejectCause v s = if zeroR3 v = 0 then none else some .reservedField := by
  simp [rejectCause_eq, listed_of_formatOf hfmt, hfmt, hop]

theorem rejectCause_r2 {v : Word} (hfmt : formatOf (fieldOpc v) = some .r2) (s : State) :
    rejectCause v s =
      if zeroR2 v = 0 then
        if fieldOpc v ∈ engineOpcodes ∧ indexNegative (s.index (fieldRs1 v)) = true then some .negIndex else none
      else some .reservedField := by
  simp [rejectCause_eq, listed_of_formatOf hfmt, hfmt]

theorem rejectCause_i20 {v : Word} (hopc : fieldOpc v = 0x02#8) (s : State) : rejectCause v s = none := by
  simp [rejectCause_eq, hopc, listedOpcodes, formatOf, engineOpcodes]

/-! ### Acceptance -/

/-- What acceptance latches, the index aside (10_state.md R26, R62), in an engine made BUSY. -/
def Latched (op : Opcode) (rd rs1 rs2 : Reg) (s t : State) : Prop :=
  t.op = op ∧ t.rd = rd ∧ t.sa = s.readW rs1 ∧ t.sb = s.readW rs2 ∧ t.sd = s.readW rd ∧ t.busy = true ∧
    AcceptedFrom s t

theorem acceptPrimitive_latched (op : Opcode) (rd rs1 rs2 : Reg) (result : State → U256) (s : State) :
    ∃ t, acceptPrimitive op rd rs1 rs2 result s = .next t ∧ Latched op rd rs1 rs2 s t ∧ t.k = s.k := by
  obtain ⟨t, ht, ha⟩ := acceptPrimitive_accepted op rd rs1 rs2 result s
  refine ⟨t, ht, ?_⟩
  cases ht.symm.trans (acceptPrimitive_spec op rd rs1 rs2 result s)
  exact ⟨⟨rfl, rfl, rfl, rfl, rfl, rfl, ha⟩, rfl⟩

theorem acceptEngine_latched (op : Opcode) (rd rs1 : Reg) (e : Engine) {s : State}
    (h : indexNegative (s.index rs1) = false) :
    ∃ t, acceptEngine op rd rs1 e.start s = .next t ∧ Latched op rd rs1 0 s t ∧ t.k = s.index rs1 := by
  obtain ⟨t, ht, ha⟩ := acceptEngine_accepted op rd rs1 e.start e.start_frame s h
  refine ⟨t, ht, ?_⟩
  rcases acceptEngine_cases op rd rs1 e.start s with ⟨hneg, -⟩ | ⟨-, hacc⟩
  · simp [h] at hneg
  · cases ht.symm.trans hacc
    obtain ⟨hbusy, -, hop, hrd, hsa, hsb, hsd, hk, -⟩ := e.start_frame { s.latch op rd rs1 0 with k := s.index rs1 }
    exact ⟨⟨hop, hrd, hsa, hsb, hsd, hbusy, ha⟩, hk⟩

/-- A CMD word's effect when it is accepted: its fields are latched whatever its format, and K for an engine command
only (R62). -/
def WordAccepted (v : Word) (s t : State) : Prop :=
  Latched (fieldOpc v) (fieldRd v) (fieldRs1 v) (fieldRs2 v) s t ∧
  t.k = if fieldOpc v ∈ engineOpcodes then s.index (fieldRs1 v) else s.k

/-- Field RS2 lies in the must-be-zero bits of format R2 (R82). -/
theorem fieldRs2_of_zeroR2 {v : Word} (h : zeroR2 v = 0) : fieldRs2 v = 0 := by
  have hlow := congrArg BitVec.toNat h
  apply BitVec.eq_of_toNat_eq
  simp only [zeroR2, fieldRs2, toNat_field, BitVec.ofNat_eq_ofNat, BitVec.toNat_ofNat] at hlow ⊢
  omega

/-- Fields RS1 and RS2 of a SETSI word are bits of its immediate (R81). -/
theorem extractLsb'_immField (v : Word) :
    (immField (fieldImm v).toInt).extractLsb' 16 4 = fieldRs1 v ∧
    (immField (fieldImm v).toInt).extractLsb' 12 4 = fieldRs2 v := by
  rw [immField, BitVec.ofInt_toInt]
  exact ⟨BitVec.extractLsb'_extractLsb'_of_le (by decide), BitVec.extractLsb'_extractLsb'_of_le (by decide)⟩

/-- A CMD write to an IDLE engine is rejected for the cause that R87 gives, or accepted when R87 gives none. -/
theorem cmdWrite_idle_cases (v : Word) {s : State} (hph : s.ph = .idle) :
    (∃ c, rejectCause v s = some c ∧ cmdWrite v s = .next (s.reject c)) ∨
    (rejectCause v s = none ∧ ∃ t, cmdWrite v s = .next t ∧ WordAccepted v s t) := by
  rw [cmdWrite_idle v s hph]
  have hrow := opcodeRow_decode v
  generalize decode v = d at hrow
  cases hrow with
  | unlisted h => exact .inl ⟨_, rejectCause_unlisted h s, rfl⟩
  | r3 mk result hfmt hop _ hexec =>
    rw [rejectCause_r3 hfmt hop, decodeR3]
    by_cases hz : zeroR3 v = 0
    · rw [if_pos hz, if_pos hz]
      obtain ⟨t, ht, hl, hk⟩ := acceptPrimitive_latched (fieldOpc v) (fieldRd v) (fieldRs1 v) (fieldRs2 v) result s
      exact .inr ⟨rfl, t, (hexec _ _ _ s).trans ht, hl, by rw [hk, if_neg hop]⟩
    · rw [if_neg hz, if_neg hz]
      exact .inl ⟨_, rfl, rfl⟩
  | r2 mk result hfmt hop _ hexec =>
    rw [rejectCause_r2 hfmt, decodeR2]
    by_cases hz : zeroR2 v = 0
    · rw [if_pos hz, if_pos hz, if_neg fun h => hop h.1]
      obtain ⟨t, ht, hl, hk⟩ := acceptPrimitive_latched (fieldOpc v) (fieldRd v) (fieldRs1 v) 0 result s
      exact .inr ⟨rfl, t, (hexec _ _ s).trans ht, (fieldRs2_of_zeroR2 hz).symm ▸ hl, by rw [hk, if_neg hop]⟩
    · rw [if_neg hz, if_neg hz]
      exact .inl ⟨_, rfl, rfl⟩
  | engine mk e hfmt hop _ hexec =>
    rw [rejectCause_r2 hfmt, decodeR2]
    by_cases hz : zeroR2 v = 0
    · rw [if_pos hz, if_pos hz]
      by_cases hneg : indexNegative (s.index (fieldRs1 v)) = true
      · exact .inl ⟨_, if_pos ⟨hop, hneg⟩, (hexec _ _ s).trans (if_pos hneg)⟩
      · obtain ⟨t, ht, hl, hk⟩ := acceptEngine_latched (fieldOpc v) (fieldRd v) (fieldRs1 v) e
          (Bool.eq_false_of_not_eq_true hneg)
        exact .inr ⟨if_neg fun h => hneg h.2, t, (hexec _ _ s).trans ht, (fieldRs2_of_zeroR2 hz).symm ▸ hl,
          by rw [hk, if_pos hop]⟩
    · rw [if_neg hz, if_neg hz]
      exact .inl ⟨_, rfl, rfl⟩
  | i20 hopc =>
    obtain ⟨hrs1, hrs2⟩ := extractLsb'_immField v
    have hop : fieldOpc v ∉ engineOpcodes := by rw [hopc]; decide
    obtain ⟨t, ht, hl, hk⟩ := acceptPrimitive_latched 0x02#8 (fieldRd v) (fieldRs1 v) (fieldRs2 v)
      (fun _ => setFromSigned (immLimb (fieldImm v).toInt)) s
    refine .inr ⟨rejectCause_i20 hopc s, t, ?_, hopc.symm ▸ hl, by rw [hk, if_neg hop]⟩
    simp only [decodeI20, exec_setsi, hrs1, hrs2, ht]

/-- A rejected CMD write, as the next move (60_exceptions.md R221). -/
theorem step_rejected {s : State} {v : Word} {rest : List Move} {c : RejectCode}
    (h : s.schedule = hostWrite32 0x010 v :: rest) (hph : s.ph = .idle) (hc : rejectCause v s = some c) :
    step s = .next ((s.served rest .written).reject c) := by
  have hc' : rejectCause v (s.served rest .written) = some c := hc
  rw [step_cmdWrite h]
  rcases cmdWrite_idle_cases v (s := s.served rest .written) hph with ⟨d, hd, hrej⟩ | ⟨hnone, -⟩
  · cases hd.symm.trans hc'
    exact hrej
  · cases hnone.symm.trans hc'

/-- An accepted CMD write, as the next move (R62). -/
theorem step_accepted {s : State} {v : Word} {rest : List Move} (h : s.schedule = hostWrite32 0x010 v :: rest)
    (hph : s.ph = .idle) (hc : rejectCause v s = none) :
    ∃ t, step s = .next t ∧ WordAccepted v (s.served rest .written) t := by
  have hc' : rejectCause v (s.served rest .written) = none := hc
  rw [step_cmdWrite h]
  rcases cmdWrite_idle_cases v (s := s.served rest .written) hph with ⟨d, hd, -⟩ | ⟨-, hacc⟩
  · cases hd.symm.trans hc'
  · exact hacc

/-- Settles O8. -/
theorem acceptanceAndRejectionFrames : Obligations.AcceptanceAndRejectionFrames := by
  intro s v rest h hph
  refine ⟨fun hc => ?_, fun c hc => ⟨_, step_rejected h hph hc, rfl, rfl, rfl, rfl, rfl, rfl⟩⟩
  obtain ⟨t, ht, ⟨-, -, -, -, -, hbusy, -, -, hie, herr, hbwe, hcode, -⟩, -⟩ := step_accepted h hph hc
  exact ⟨t, ht, hbusy, herr, hbwe, hcode, hie⟩

/-- Settles O9. -/
theorem acceptanceLatchesOperands : Obligations.AcceptanceLatchesOperands := by
  intro s v rest h hph hc
  obtain ⟨t, ht, ⟨hop, hrd, hsa, hsb, hsd, hbusy, hdone, hw, -, -, -, -, hsch, -⟩, hk⟩ := step_accepted h hph hc
  exact ⟨t, ht, hop, hrd, hsa, hsb, hsd, fun he => hk.trans (if_pos he), fun he => hk.trans (if_neg he), hdone, hbusy,
    hw, hsch⟩

end Sys2Proof.Machine
end

section
/-! The encoding family (spec 30_encoding.md R80 to R91): the decoder inverts the encoder and rejects the illegal words
only, and the assembler carries every operand as it is written. -/

namespace Sys2Proof.Machine

/-! ### The fields of an encoded word (R81, R82) -/

theorem fieldOpc_encode (i : Instr) : fieldOpc (encode i) = i.opcode := by
  cases i with
  | setsi rd imm => exact (Laws.OpcodeByte.setsi rd imm).1
  | add rd rs1 rs2 | sub rd rs1 rs2 | mul rd rs1 rs2 | mulw rd rs1 rs2 => exact (Laws.OpcodeByte.r3 _ rd rs1 rs2).1
  | sets rd rs1 | copy rd rs1 | adds rd rs1 | fibs128 rd rs1 | fibd128 rd rs1 | fibc128 rd rs1 | fibi256 rd rs1
  | fibc256 rd rs1 | fibc256w rd rs1 => exact (Laws.OpcodeByte.r2 _ rd rs1).1

theorem fieldRs1_encodeR3 (opc : Opcode) (rd rs1 rs2 : Reg) : fieldRs1 (encodeR3 opc rd rs1 rs2) = rs1 := by
  apply BitVec.eq_of_toNat_eq
  rw [fieldRs1, toNat_field, toNat_encodeR3]
  omega

theorem fieldRs2_encodeR3 (opc : Opcode) (rd rs1 rs2 : Reg) : fieldRs2 (encodeR3 opc rd rs1 rs2) = rs2 := by
  apply BitVec.eq_of_toNat_eq
  rw [fieldRs2, toNat_field, toNat_encodeR3]
  omega

theorem zeroR3_encodeR3 (opc : Opcode) (rd rs1 rs2 : Reg) : zeroR3 (encodeR3 opc rd rs1 rs2) = 0 := by
  apply BitVec.eq_of_toNat_eq
  rw [zeroR3, toNat_field, toNat_encodeR3]
  simp only [BitVec.ofNat_eq_ofNat, BitVec.toNat_ofNat]
  omega

theorem fieldRs1_encodeR2 (opc : Opcode) (rd rs1 : Reg) : fieldRs1 (encodeR2 opc rd rs1) = rs1 := by
  apply BitVec.eq_of_toNat_eq
  rw [fieldRs1, toNat_field, toNat_encodeR2]
  omega

theorem zeroR2_encodeR2 (opc : Opcode) (rd rs1 : Reg) : zeroR2 (encodeR2 opc rd rs1) = 0 := by
  apply BitVec.eq_of_toNat_eq
  rw [zeroR2, toNat_field, toNat_encodeR2]
  simp only [BitVec.ofNat_eq_ofNat, BitVec.toNat_ofNat]
  omega

theorem fieldImm_encodeI20 (opc : Opcode) (rd : Reg) (imm : Int) :
    fieldImm (encodeI20 opc rd imm) = BitVec.ofInt 20 imm := by
  apply BitVec.eq_of_toNat_eq
  rw [fieldImm, toNat_field, toNat_encodeI20]
  omega

/-! ### Decoding an encoded command -/

theorem decodeR3_encodeR3 (opc : Opcode) (rd rs1 rs2 : Reg) (mk : Reg → Reg → Reg → Instr) :
    decodeR3 (encodeR3 opc rd rs1 rs2) mk = .command (mk rd rs1 rs2) := by
  rw [decodeR3, if_pos (zeroR3_encodeR3 opc rd rs1 rs2), (Laws.OpcodeByte.r3 opc rd rs1 rs2).2, fieldRs1_encodeR3,
    fieldRs2_encodeR3]

theorem decodeR2_encodeR2 (opc : Opcode) (rd rs1 : Reg) (mk : Reg → Reg → Instr) :
    decodeR2 (encodeR2 opc rd rs1) mk = .command (mk rd rs1) := by
  rw [decodeR2, if_pos (zeroR2_encodeR2 opc rd rs1), (Laws.OpcodeByte.r2 opc rd rs1).2, fieldRs1_encodeR2]

/-- The one format that can lose an operand: the immediate comes back when the field holds it (R83). -/
theorem decodeI20_encodeI20 (opc : Opcode) (rd : Reg) {imm : Int} (h : immFits imm) (mk : Reg → Int → Instr) :
    decodeI20 (encodeI20 opc rd imm) mk = .command (mk rd imm) := by
  rw [decodeI20, (Laws.OpcodeByte.i20 opc rd imm).2, fieldImm_encodeI20,
    BitVec.toInt_ofInt_eq_self (by decide) h.1 (Int.lt_add_one_of_le h.2)]

/-- Settles O1. -/
theorem decodeOfEncode : Obligations.DecodeOfEncode := by
  intro i hwf
  rw [decode, fieldOpc_encode]
  cases i with
  | setsi rd imm => exact decodeI20_encodeI20 _ rd (of_decide_eq_true hwf) _
  | add rd rs1 rs2 | sub rd rs1 rs2 | mul rd rs1 rs2 | mulw rd rs1 rs2 => exact decodeR3_encodeR3 _ rd rs1 rs2 _
  | sets rd rs1 | copy rd rs1 | adds rd rs1 | fibs128 rd rs1 | fibd128 rd rs1 | fibc128 rd rs1 | fibi256 rd rs1
  | fibc256 rd rs1 | fibc256w rd rs1 => exact decodeR2_encodeR2 _ rd rs1 _

/-! ### Encoding a decoded word -/

theorem encodeR3_fields {v : Word} (h : zeroR3 v = 0) :
    encodeR3 (fieldOpc v) (fieldRd v) (fieldRs1 v) (fieldRs2 v) = v := by
  have hlow := congrArg BitVec.toNat h
  apply BitVec.eq_of_toNat_eq
  rw [toNat_encodeR3]
  simp only [zeroR3, fieldOpc, fieldRd, fieldRs1, fieldRs2, toNat_field, BitVec.ofNat_eq_ofNat, BitVec.toNat_ofNat]
    at hlow ⊢
  omega

theorem encodeR2_fields {v : Word} (h : zeroR2 v = 0) : encodeR2 (fieldOpc v) (fieldRd v) (fieldRs1 v) = v := by
  have hlow := congrArg BitVec.toNat h
  apply BitVec.eq_of_toNat_eq
  rw [toNat_encodeR2]
  simp only [zeroR2, fieldOpc, fieldRd, fieldRs1, toNat_field, BitVec.ofNat_eq_ofNat, BitVec.toNat_ofNat] at hlow ⊢
  omega

theorem encodeI20_fields (v : Word) : encodeI20 (fieldOpc v) (fieldRd v) (fieldImm v).toInt = v := by
  apply BitVec.eq_of_toNat_eq
  rw [toNat_encodeI20, BitVec.ofInt_toInt]
  simp only [fieldOpc, fieldRd, fieldImm, toNat_field]
  omega

section Sound
variable {v : Word} {opc : Opcode} {i : Instr}

theorem encode_of_decodeR3 {mk : Reg → Reg → Reg → Instr} (hopc : fieldOpc v = opc)
    (henc : ∀ rd rs1 rs2, encode (mk rd rs1 rs2) = encodeR3 opc rd rs1 rs2) (h : decodeR3 v mk = .command i) :
    encode i = v := by
  rw [decodeR3] at h
  split at h
  · next hz =>
    cases h
    rw [henc, ← hopc, encodeR3_fields hz]
  · cases h

theorem encode_of_decodeR2 {mk : Reg → Reg → Instr} (hopc : fieldOpc v = opc)
    (henc : ∀ rd rs1, encode (mk rd rs1) = encodeR2 opc rd rs1) (h : decodeR2 v mk = .command i) : encode i = v := by
  rw [decodeR2] at h
  split at h
  · next hz =>
    cases h
    rw [henc, ← hopc, encodeR2_fields hz]
  · cases h

theorem encode_of_decodeI20 {mk : Reg → Int → Instr} (hopc : fieldOpc v = opc)
    (henc : ∀ rd imm, encode (mk rd imm) = encodeI20 opc rd imm) (h : decodeI20 v mk = .command i) : encode i = v := by
  cases h
  rw [henc, ← hopc, encodeI20_fields]

end Sound

/-- Each row of the decoder has its format's encoder in the same row of the encoder. By format: row 2 of `decode` is
SETSI; rows 4, 6, 7 and 8 are ADD, SUB, MUL and MULW; the last is every unlisted opcode. -/
theorem encode_of_decode {v : Word} {i : Instr} (h : decode v = .command i) : encode i = v := by
  unfold decode at h
  split at h
  case h_15 => cases h
  case h_2 hopc => exact encode_of_decodeI20 hopc (fun _ _ => rfl) h
  case h_4 hopc | h_6 hopc | h_7 hopc | h_8 hopc => exact encode_of_decodeR3 hopc (fun _ _ _ => rfl) h
  all_goals next hopc => exact encode_of_decodeR2 hopc (fun _ _ => rfl) h

/-- Settles O2. -/
theorem encodeOfDecode : Obligations.EncodeOfDecode :=
  fun _ _ h => ⟨wellFormed_of_decode h, encode_of_decode h⟩

/-! ### The rejected words (R86, R87) -/

theorem decodeR3_eq_rejected_iff (v : Word) (mk : Reg → Reg → Reg → Instr) (c : RejectCode) :
    decodeR3 v mk = .rejected c ↔ zeroR3 v ≠ 0 ∧ c = .reservedField := by
  simp [decodeR3, ite_eq_iff, eq_comm (a := c)]

theorem decodeR2_eq_rejected_iff (v : Word) (mk : Reg → Reg → Instr) (c : RejectCode) :
    decodeR2 v mk = .rejected c ↔ zeroR2 v ≠ 0 ∧ c = .reservedField := by
  simp [decodeR2, ite_eq_iff, eq_comm (a := c)]

/-- The causes the decoder gives, through the fields of the word. -/
theorem decode_eq_rejected_iff (v : Word) (c : RejectCode) :
    decode v = .rejected c ↔
      (c = .illegalOpcode ∧ fieldOpc v ∉ listedOpcodes) ∨
      (c = .reservedField ∧
        ((formatOf (fieldOpc v) = some .r3 ∧ zeroR3 v ≠ 0) ∨ (formatOf (fieldOpc v) = some .r2 ∧ zeroR2 v ≠ 0))) := by
  have hrow := opcodeRow_decode v
  generalize decode v = d at hrow
  cases hrow with
  | unlisted h =>
    have hnone (f : Format) : formatOf (fieldOpc v) ≠ some f := fun hf => h (listed_of_formatOf hf)
    simp [h, hnone, eq_comm]
  | r3 mk _ hfmt => simp [decodeR3_eq_rejected_iff, listed_of_formatOf hfmt, hfmt, and_comm]
  | r2 mk _ hfmt | engine mk _ hfmt => simp [decodeR2_eq_rejected_iff, listed_of_formatOf hfmt, hfmt, and_comm]
  | i20 hopc => simp [decodeI20, hopc, listedOpcodes, formatOf]

/-- Settles O3. -/
theorem decodeRejectsExactlyIllegalWords : Obligations.DecodeRejectsExactlyIllegalWords := by
  refine ⟨fun v => ⟨?_, ?_, ?_⟩, by decide +kernel⟩
  · exact (decode_eq_rejected_iff v _).trans (by simp [fieldOpc])
  · exact (decode_eq_rejected_iff v _).trans (by simp [fieldOpc, zeroR3, zeroR2])
  · simp [decode_eq_rejected_iff]

/-- Settles O5. -/
theorem immediateIsSignExtendedField : Obligations.ImmediateIsSignExtendedField := by
  intro v h
  refine ⟨?_, ?_, immFits_fieldImm v⟩
  · have hopc : fieldOpc v = 0x02#8 := h
    rw [decode, hopc]
    rfl
  · rw [immLimb, immField, BitVec.ofInt_toInt]

/-- Settles O4. -/
theorem decodeExampleWords : Obligations.DecodeExampleWords := by
  unfold Obligations.DecodeExampleWords
  decide

end Sys2Proof.Machine
end

section
/-! The assembler (spec 30_encoding.md R90, R91): what its parsers accept, and how a line is laid out. -/

namespace Sys2Proof.Machine

/-! ### What the assembler accepts is well formed (R90) -/

theorem immFits_of_parseImm {cs : List Char} {imm : Int} (h : parseImm cs = some imm) : immFits imm := by
  simp only [parseImm] at h
  split at h
  · split at h
    · next hfits => cases h; exact hfits
    · cases h
  · cases h

section Accepted
variable {ops : List (List Char)} {i : Instr}

theorem wellFormed_of_asmR3 {mk : Reg → Reg → Reg → Instr} (hwf : ∀ rd rs1 rs2, (mk rd rs1 rs2).WellFormed)
    (h : asmR3 mk ops = .command i) : i.WellFormed := by
  unfold asmR3 at h
  split at h
  · split at h
    · cases h; exact hwf _ _ _
    · cases h
  · cases h

theorem wellFormed_of_asmR2 {mk : Reg → Reg → Instr} (hwf : ∀ rd rs1, (mk rd rs1).WellFormed)
    (h : asmR2 mk ops = .command i) : i.WellFormed := by
  unfold asmR2 at h
  split at h
  · split at h
    · cases h; exact hwf _ _
    · cases h
  · cases h

theorem wellFormed_of_asmR1 {mk : Reg → Instr} (hwf : ∀ rd, (mk rd).WellFormed)
    (h : asmR1 mk ops = .command i) : i.WellFormed := by
  unfold asmR1 at h
  split at h
  · split at h
    · cases h; exact hwf _
    · cases h
  · cases h

/-- SETSI and LI, whose immediate the parser has checked. -/
theorem wellFormed_of_asmI20_setsi (h : asmI20 .setsi ops = .command i) : i.WellFormed := by
  unfold asmI20 at h
  split at h
  · split at h
    · next himm => cases h; exact decide_eq_true (immFits_of_parseImm himm)
    · cases h
  · cases h

/-- One command per mnemonic, read by its format's operand parser. -/
theorem wellFormed_of_assembleCommand {m : String} (h : assembleCommand m ops = .command i) : i.WellFormed := by
  unfold assembleCommand at h
  split at h
  any_goals exact wellFormed_of_asmR3 (fun _ _ _ => rfl) h
  any_goals exact wellFormed_of_asmR2 (fun _ _ => rfl) h
  any_goals exact wellFormed_of_asmI20_setsi h
  · exact wellFormed_of_asmR1 (fun _ => rfl) h
  · cases h

end Accepted

/-- Settles O55. -/
theorem assembledCommandsAreWellFormed : Obligations.AssembledCommandsAreWellFormed := by
  intro line i h
  unfold assemble at h
  split at h
  · cases h
  · exact wellFormed_of_assembleCommand h

/-! ### Digits and numerals (R90) -/

theorem digitValue_digitChar {d : Nat} (h : d < 16) : digitValue d.digitChar = d := by
  revert d
  decide

theorem parseDigits_append (base acc : Nat) (xs ys : List Char) :
    parseDigits base acc (xs ++ ys) = (parseDigits base acc xs).bind (parseDigits base · ys) := by
  induction xs generalizing acc with
  | nil => rfl
  | cons c cs ih =>
    simp only [List.cons_append, parseDigits]
    split
    · exact ih _
    · rfl

/-- The digits of a number in a base up to 16 are read back as that number. -/
theorem parseDigits_toDigits {base : Nat} (hlo : 1 < base) (hhi : base ≤ 16) (n : Nat) :
    parseDigits base 0 (Nat.toDigits base n) = some n := by
  have hdigit (acc : Nat) {d : Nat} (hd : d < base) : parseDigits base acc [d.digitChar] = some (acc * base + d) := by
    simp [parseDigits, digitValue_digitChar (hd.trans_le hhi), hd]
  induction n using Nat.base_induction base hlo with
  | single d hd => simp [Nat.toDigits_of_lt_base hd, hdigit 0 hd]
  | digit m k hk hm ih =>
    rw [← Nat.toDigits_append_toDigits hlo hm hk, parseDigits_append, ih, Nat.toDigits_of_lt_base hk, Option.bind_some,
      hdigit m hk, Nat.mul_comm]

theorem digitValue_lt_of_parseDigits {base acc n : Nat} {cs : List Char} (h : parseDigits base acc cs = some n) :
    ∀ c ∈ cs, digitValue c < base := by
  induction cs generalizing acc with
  | nil => simp
  | cons c cs ih =>
    rw [parseDigits] at h
    split at h
    · next hc => exact List.forall_mem_cons.mpr ⟨hc, ih h⟩
    · cases h

/-- Digits are decimal unless an `x` stands among them, and `x` is no digit. -/
theorem parseNumber_of_parseDigits {cs : List Char} {n : Nat} (hne : cs ≠ []) (h : parseDigits 10 0 cs = some n) :
    parseNumber cs = some n := by
  unfold parseNumber
  split
  · exact absurd rfl hne
  · exact absurd (digitValue_lt_of_parseDigits h 'x' (by simp)) (by decide)
  · exact h

theorem parseNumber_toDigits_ten (n : Nat) : parseNumber (Nat.toDigits 10 n) = some n :=
  parseNumber_of_parseDigits Nat.toDigits_ne_nil (parseDigits_toDigits (by decide) (by decide) n)

theorem parseNumber_toDigits_sixteen (n : Nat) : parseNumber ('0' :: 'x' :: Nat.toDigits 16 n) = some n := by
  have hparse := parseDigits_toDigits (base := 16) (by decide) (by decide) n
  cases hds : Nat.toDigits 16 n with
  | nil => exact absurd hds Nat.toDigits_ne_nil
  | cons c cs => rwa [hds] at hparse

/-- A numeral carries no sign of its own. -/
theorem ne_minus_of_parseNumber {ds : List Char} {n : Nat} (h : parseNumber ds = some n) (cs : List Char) :
    ds ≠ '-' :: cs := by
  rintro rfl
  simp [parseNumber, parseDigits, digitValue] at h

theorem parseImm_of_parseNumber {ds : List Char} {n : Nat} (h : parseNumber ds = some n) :
    parseImm ds = if n ≤ 524287 then some (n : Int) else none := by
  have hfits : immFits (n : Int) ↔ n ≤ 524287 := by unfold immFits; omega
  simp [parseImm, ne_minus_of_parseNumber h, h, hfits]

theorem parseImm_minus {ds : List Char} {n : Nat} (h : parseNumber ds = some n) :
    parseImm ('-' :: ds) = if n ≤ 524288 then some (-(n : Int)) else none := by
  have hfits : immFits (-(n : Int)) ↔ n ≤ 524288 := by unfold immFits; omega
  simp [parseImm, h, hfits]

theorem parseReg_toDigits (rd : Reg) : parseReg ('w' :: Nat.toDigits 10 rd.toNat) = some rd := by
  revert rd
  decide

/-! ### The layout of a line (R90) -/

/-- A character that separates nothing: no blank, no `;`, no `,`. -/
abbrev InnerChar (c : Char) : Prop := isBlankChar c = false ∧ c ≠ ';' ∧ c ≠ ','

/-- A mnemonic or an operand, as it stands in a line. -/
def Token (cs : List Char) : Prop := cs ≠ [] ∧ ∀ c ∈ cs, InnerChar c

theorem innerChar_of_digitValue {c : Char} (h : digitValue c < 16) : InnerChar c := by
  have hne (d : Char) (hd : ¬ digitValue d < 16) : c ≠ d := fun hcd => hd (hcd ▸ h)
  exact ⟨by simp [isBlankChar, hne ' ' (by decide), hne '\t' (by decide)], hne ';' (by decide), hne ',' (by decide)⟩

section Inner
variable {cs : List Char} (h : Token cs)
include h

theorem Token.not_blank {c : Char} (hc : c ∈ cs) : isBlankChar c = false := (h.2 c hc).1

theorem Token.ne_semicolon {c : Char} (hc : c ∈ cs) : c ≠ ';' := (h.2 c hc).2.1

theorem Token.ne_comma {c : Char} (hc : c ∈ cs) : c ≠ ',' := (h.2 c hc).2.2

end Inner

theorem Token.cons {c : Char} {cs : List Char} (hc : InnerChar c) (h : Token cs) : Token (c :: cs) :=
  ⟨List.cons_ne_nil _ _, List.forall_mem_cons.mpr ⟨hc, h.2⟩⟩

theorem Token.reverse {cs : List Char} (h : Token cs) : Token cs.reverse :=
  ⟨mt List.reverse_eq_nil_iff.mp h.1, fun c hc => h.2 c (List.mem_reverse.mp hc)⟩

theorem token_of_parseDigits {base acc n : Nat} {cs : List Char} (hbase : base ≤ 16) (hne : cs ≠ [])
    (h : parseDigits base acc cs = some n) : Token cs :=
  ⟨hne, fun c hc => innerChar_of_digitValue ((digitValue_lt_of_parseDigits h c hc).trans_le hbase)⟩

theorem token_of_parseNumber {cs : List Char} {n : Nat} (h : parseNumber cs = some n) : Token cs := by
  unfold parseNumber at h
  split at h
  · cases h
  · exact .cons (by decide) (.cons (by decide) (token_of_parseDigits (by decide) (List.cons_ne_nil _ _) h))
  · exact token_of_parseDigits (by decide) (List.cons_ne_nil _ _) h

/-- Every register name that the parser accepts is a token. -/
theorem token_of_parseReg {cs : List Char} {rd : Reg} (h : parseReg cs = some rd) : Token cs := by
  have hsingle {c : Char} (hc : digitValue c < 16) : Token [c] :=
    ⟨List.cons_ne_nil _ _, List.forall_mem_singleton.mpr (innerChar_of_digitValue hc)⟩
  unfold parseReg at h
  split at h
  · split at h
    · next hc => exact .cons (by decide) (hsingle (hc.trans (by decide)))
    · cases h
  · split at h
    · next hc => exact .cons (by decide) (.cons (by decide) (hsingle (hc.trans (by decide))))
    · cases h
  · cases h

section Layout
variable {m a b : List Char}

theorem Token.dropWhile_append (h : Token a) (l : List Char) : (a ++ l).dropWhile isBlankChar = a ++ l := by
  cases a with
  | nil => exact absurd rfl h.1
  | cons c cs => simp [h.not_blank (c := c) (by simp)]

/-- No blank is trimmed from a line with tokens at both ends. -/
theorem trimBlanks_eq_self {l : List Char} (ha : Token a) (hb : Token b) (hpre : a <+: l) (hsuf : b <:+ l) :
    trimBlanks l = l := by
  have hleft : l.dropWhile isBlankChar = l := by
    obtain ⟨r, rfl⟩ := hpre
    exact ha.dropWhile_append r
  have hright : l.reverse.dropWhile isBlankChar = l.reverse := by
    obtain ⟨r, rfl⟩ := hsuf
    rw [List.reverse_append]
    exact hb.reverse.dropWhile_append r.reverse
  rw [trimBlanks, hleft, hright, List.reverse_reverse]

theorem Token.trimBlanks_eq (h : Token a) : trimBlanks a = a :=
  trimBlanks_eq_self h h List.prefix_rfl List.suffix_rfl

theorem trimBlanks_space (cs : List Char) : trimBlanks (' ' :: cs) = trimBlanks cs := rfl

theorem splitCommas_ne_nil (cs : List Char) : splitCommas cs ≠ [] := by
  cases cs with
  | nil => exact List.cons_ne_nil _ _
  | cons c cs =>
    rw [splitCommas]
    split
    · exact List.cons_ne_nil _ _
    · split
      · exact List.cons_ne_nil _ _
      · exact List.cons_ne_nil _ _

theorem splitCommas_comma (cs : List Char) : splitCommas (',' :: cs) = [] :: splitCommas cs := by
  cases hs : splitCommas cs with
  | nil => exact absurd hs (splitCommas_ne_nil cs)
  | cons p ps => simp [splitCommas, hs]

theorem splitCommas_append {cs p : List Char} {ps : List (List Char)} (ha : ∀ c ∈ a, c ≠ ',')
    (h : splitCommas cs = p :: ps) : splitCommas (a ++ cs) = (a ++ p) :: ps := by
  induction a with
  | nil => exact h
  | cons c cs ih =>
    obtain ⟨hc, hcs⟩ := List.forall_mem_cons.mp ha
    simp [splitCommas, ih hcs, hc]

/-- Two operands are what stands on the two sides of the comma. -/
theorem operandsOf_pair (ha : Token a) (hb : Token b) : operandsOf (' ' :: (a ++ ',' :: ' ' :: b)) = [a, b] := by
  have hright : splitCommas (' ' :: b) = [' ' :: b] := by
    have happ := splitCommas_append (a := ' ' :: b) (cs := [])
      (List.forall_mem_cons.mpr ⟨by decide, fun _ => hb.ne_comma⟩) rfl
    simpa using happ
  have hsplit : splitCommas (' ' :: (a ++ ',' :: ' ' :: b)) = [' ' :: a, ' ' :: b] := by
    have happ := splitCommas_append (a := ' ' :: a) (List.forall_mem_cons.mpr ⟨by decide, fun _ => ha.ne_comma⟩)
      (splitCommas_comma (' ' :: b))
    simpa [hright] using happ
  have htrim : trimBlanks (a ++ ',' :: ' ' :: b) = a ++ ',' :: ' ' :: b :=
    trimBlanks_eq_self ha hb (List.prefix_append _ _) ⟨a ++ [',', ' '], by simp⟩
  rw [operandsOf, trimBlanks_space, htrim, if_neg (by simp), hsplit]
  simp [trimBlanks_space, ha.trimBlanks_eq, hb.trimBlanks_eq]

/-- A line `MNEMONIC a, b` without a comment is its mnemonic, in upper case, with its two operands. -/
theorem assemble_pair (hm : Token m) (ha : Token a) (hb : Token b) :
    assemble (m ++ ' ' :: (a ++ ',' :: ' ' :: b)) =
      assembleCommand (String.ofList (m.map Char.toUpper)) [a, b] := by
  have hstrip : stripComment (m ++ ' ' :: (a ++ ',' :: ' ' :: b)) = m ++ ' ' :: (a ++ ',' :: ' ' :: b) := by
    refine List.takeWhile_eq_self_iff.mpr fun c hc => bne_iff_ne.mpr ?_
    simp only [List.mem_append, List.mem_cons] at hc
    rcases hc with hc | rfl | hc | rfl | rfl | hc
    · exact hm.ne_semicolon hc
    · decide
    · exact ha.ne_semicolon hc
    · decide
    · decide
    · exact hb.ne_semicolon hc
  have htrim : trimBlanks (m ++ ' ' :: (a ++ ',' :: ' ' :: b)) = m ++ ' ' :: (a ++ ',' :: ' ' :: b) :=
    trimBlanks_eq_self hm hb (List.prefix_append _ _) ⟨m ++ ' ' :: (a ++ [',', ' ']), by simp⟩
  have hinner : ∀ c ∈ m, (!isBlankChar c) = true := fun c hc => by simp [hm.not_blank hc]
  have hspace : isBlankChar ' ' = true := rfl
  rw [assemble, hstrip, htrim]
  split
  · next hnil => exact absurd (List.append_eq_nil_iff.mp hnil).1 hm.1
  · rw [List.takeWhile_append_of_pos hinner, List.dropWhile_append_of_pos hinner]
    simp [hspace, operandsOf_pair ha hb]

end Layout

/-! ### The immediate of a line -/

theorem asmI20_of_parse {mk : Reg → Int → Instr} {d x : List Char} {rd : Reg} {imm : Int} {p : Prop} [Decidable p]
    (hd : parseReg d = some rd) (hx : parseImm x = if p then some imm else none) :
    asmI20 mk [d, x] = if p then .command (mk rd imm) else .refused := by
  rw [asmI20, hd, hx]
  by_cases hp : p <;> simp [hp]

/-- SETSI and LI are one command (R91), whatever their operands. -/
theorem assemble_setsi {s : String} (hs : s ∈ ["SETSI w", "LI w"]) {a b : List Char} (ha : Token ('w' :: a))
    (hb : Token b) : assemble (s.toList ++ a ++ ", ".toList ++ b) = asmI20 .setsi ['w' :: a, b] := by
  have hline {m : List Char} (hm : Token m) :
      assemble (m ++ [' ', 'w'] ++ a ++ ", ".toList ++ b) =
        assembleCommand (String.ofList (m.map Char.toUpper)) ['w' :: a, b] := by
    rw [← assemble_pair hm ha hb]
    simp
  rcases List.mem_pair.mp hs with rfl | rfl
  · exact hline (m := "SETSI".toList) ⟨by decide, by simp [InnerChar, isBlankChar]⟩
  · exact hline (m := "LI".toList) ⟨by decide, by simp [InnerChar, isBlankChar]⟩

/-- Settles O58. -/
theorem assembledImmediateIsTheNumeral : Obligations.AssembledImmediateIsTheNumeral := by
  intro rd n m hm digits hdigits
  have hreg := parseReg_toDigits rd
  have hnum : parseNumber digits = some n := by
    rcases List.mem_pair.mp hdigits with rfl | rfl
    · exact parseNumber_toDigits_ten n
    · exact parseNumber_toDigits_sixteen n
  have htok := token_of_parseNumber hnum
  constructor
  · rw [assemble_setsi hm (token_of_parseReg hreg) htok]
    exact asmI20_of_parse hreg (parseImm_of_parseNumber hnum)
  · have hminus : m.toList ++ Nat.toDigits 10 rd.toNat ++ ", -".toList ++ digits =
        m.toList ++ Nat.toDigits 10 rd.toNat ++ ", ".toList ++ '-' :: digits := by simp
    rw [hminus, assemble_setsi hm (token_of_parseReg hreg) (htok.cons (by decide))]
    exact asmI20_of_parse hreg (parseImm_minus hnum)

/-- Settles O56. -/
theorem assemblerExamples : Obligations.AssemblerExamples := by
  unfold Obligations.AssemblerExamples
  decide +kernel

end Sys2Proof.Machine
end

section
/-! The assignment commands and the primitives' run (spec 40_assign.md R100 to R103): the sign extension as two's
complement, and the one COMMIT step that every primitive takes. -/

namespace Sys2Proof.Machine

/-! ### The sign extension (R100, R101) -/

/-- R100's choice of the high limb is the two's-complement sign extension. -/
theorem setFromSigned_eq_signExtend (l : Limb) : setFromSigned l = l.signExtend 256 := by
  refine BitVec.eq_of_getLsbD_eq fun b hb => ?_
  rw [setFromSigned, u256, BitVec.getLsbD_append, BitVec.getLsbD_signExtend]
  by_cases hlow : b < 128
  · simp [hlow, hb]
  · have hhigh : b - 128 < 128 := by omega
    cases l.msb <;> simp [hlow, hb, hhigh, -BitVec.reduceAllOnes]

/-- The 20-bit field of a well-formed immediate, read as two's complement, is the immediate (R83). -/
theorem toInt_immField {imm : Int} (h : immFits imm) : (immField imm).toInt = imm :=
  BitVec.toInt_ofInt_eq_self (by decide) h.1 (Int.lt_add_one_of_le h.2)

/-- The two extensions of R101, of the field to a limb and of the limb to 256 bits, keep the immediate's value. -/
theorem setFromSigned_immLimb {imm : Int} (h : immFits imm) : setFromSigned (immLimb imm) = BitVec.ofInt 256 imm := by
  rw [setFromSigned_eq_signExtend, immLimb, BitVec.signExtend, BitVec.toInt_signExtend_of_le (by decide),
    toInt_immField h]

/-- Settles O33. -/
theorem setsSignExtendsTheLowLimb : Obligations.SetsSignExtendsTheLowLimb := by
  intro s rd rs1 _
  rw [exec_sets, acceptPrimitive_spec, setFromSigned_eq_signExtend]
  rfl

/-- Settles O34. -/
theorem setsiSignExtendsTheImmediate : Obligations.SetsiSignExtendsTheImmediate := by
  intro s rd imm _ hwf
  rw [exec_setsi, acceptPrimitive_spec, setFromSigned_immLimb (of_decide_eq_true hwf)]
  rfl

/-- Settles O35. -/
theorem copyTakesBothLimbs : Obligations.CopyTakesBothLimbs := by
  intro s rd rs1 _
  rw [exec_copy, acceptPrimitive_spec]
  rfl

/-! ### The run of a primitive (R103) -/

/-- A command that names no index register is accepted as a primitive, into its own destination. -/
theorem exec_primitive {i : Instr} (h : i.indexReg = none) :
    ∃ op rs1 rs2 result, ∀ s, exec i s = acceptPrimitive op i.dest rs1 rs2 result s := by
  cases i with
  | sets rd rs1 => exact ⟨_, _, _, _, exec_sets rd rs1⟩
  | setsi rd imm => exact ⟨_, _, _, _, exec_setsi rd imm⟩
  | copy rd rs1 => exact ⟨_, _, _, _, exec_copy rd rs1⟩
  | add rd rs1 rs2 => exact ⟨_, _, _, _, exec_add rd rs1 rs2⟩
  | adds rd rs1 => exact ⟨_, _, _, _, exec_adds rd rs1⟩
  | sub rd rs1 rs2 => exact ⟨_, _, _, _, exec_sub rd rs1 rs2⟩
  | mul rd rs1 rs2 => exact ⟨_, _, _, _, exec_mul rd rs1 rs2⟩
  | mulw rd rs1 rs2 => exact ⟨_, _, _, _, exec_mulw rd rs1 rs2⟩
  | fibs128 | fibd128 | fibc128 | fibi256 | fibc256 | fibc256w => cases h

theorem engineRun_zero (s : State) : engineRun 0 s = .next s := rfl

theorem engineRun_succ {s t : State} (h : engineTurn s = .next t) (k : Nat) :
    engineRun (k + 1) s = engineRun k t := by simp [engineRun, h]

/-- An engine in COMMIT takes no LOOP step: its next turn writes RES to W[RD] (10_state.md R33). -/
theorem runsTo_zero_of_commit {t : State} (h : t.ph = .commit) : RunsTo 0 t.rd t.res t := by
  have hcommit : engineRun 1 t = .next t.commitStep := engineRun_succ (engineTurn_commit h) 0
  refine ⟨fun m hm => ?_, t.commitStep, hcommit, rfl, rfl, rfl, rfl, rfl, rfl, rfl, rfl, rfl⟩
  obtain rfl := Nat.le_zero.mp hm
  exact ⟨t, engineRun_zero t, by simp [State.busy, h], rfl⟩

/-- Settles O41. -/
theorem primitivesCommitInOneEngineStep : Obligations.PrimitivesCommitInOneEngineStep := by
  intro i s hi _
  obtain ⟨op, rs1, rs2, result, hexec⟩ := exec_primitive hi
  obtain ⟨t, ht, haccepted⟩ := acceptPrimitive_accepted op i.dest rs1 rs2 result s
  obtain ⟨hrd, hph⟩ : t.rd = i.dest ∧ t.ph = .commit := by
    cases ht.symm.trans (acceptPrimitive_spec op i.dest rs1 rs2 result s)
    exact ⟨rfl, rfl⟩
  refine ⟨t, (hexec s).trans ht, hph, hrd, haccepted, ?_⟩
  rw [← hrd]
  exact runsTo_zero_of_commit hph

end Sys2Proof.Machine
end

section
/-! The adder and subtractor commands (spec 41_addsub.md R120 to R123): the borrow chain, the three commands' results and
the laws of their datapath. -/

namespace Sys2Proof.Machine

/-! ### The subtractor (R122) -/

/-- R122's borrow chain is subtraction mod 2^256: the borrow out of the high limb is discarded. -/
theorem subBorrowChain_eq_sub (x y : U256) : subBorrowChain x y = x - y := by
  have hx := x.isLt
  have hy := y.isLt
  apply BitVec.eq_of_toNat_eq
  simp only [subBorrowChain, toNat_u256, BitVec.toNat_sub, toNat_borrowOut, toNat_hi, toNat_lo]
  split <;> omega

/-- Settles O51: both forms are subtraction mod 2^256. -/
theorem subtractFormsAgree : Obligations.SubtractFormsAgree := fun x y => by
  rw [subU256_eq_sub, subBorrowChain_eq_sub]

theorem toNat_subU256 (x y : U256) : ((subU256 x y).toNat : Int) = ((x.toNat : Int) - y.toNat) % 2 ^ 256 := by
  have hy := y.isLt
  rw [subU256_eq_sub, BitVec.toNat_sub]
  omega

/-! ### The three commands -/

/-- Settles O36. -/
theorem addIsModular : Obligations.AddIsModular := by
  intro s rd rs1 rs2 _
  rw [exec_add, acceptPrimitive_spec, addU256_eq_add]
  rfl

/-- Settles O37. -/
theorem addsAddsOneLimb : Obligations.AddsAddsOneLimb := by
  intro s rd rs1 _
  rw [exec_adds, acceptPrimitive_spec, addScalar_eq_add]
  rfl

/-- Settles O38. -/
theorem subIsModular : Obligations.SubIsModular := by
  intro s rd rs1 rs2 _
  rw [exec_sub, acceptPrimitive_spec, subU256_eq_sub]
  rfl

/-! ### The laws (R123)

The unsigned and the two's-complement readings share one bit pattern, so each law is the one of `BitVec` addition or
subtraction. -/

theorem addU256_comm (x y : U256) : addU256 x y = addU256 y x := by
  rw [addU256_eq_add, addU256_eq_add, BitVec.add_comm]

theorem subU256_addU256 (x y : U256) : subU256 (addU256 x y) y = x := by
  rw [subU256_eq_sub, addU256_eq_add, BitVec.add_sub_cancel]

theorem addU256_subU256 (x y : U256) : addU256 (subU256 x y) y = x := by
  rw [addU256_eq_add, subU256_eq_sub, BitVec.sub_add_cancel]

theorem toInt_addU256 (x y : U256) : (addU256 x y).toInt = (x.toInt + y.toInt).bmod (2 ^ 256) := by
  rw [addU256_eq_add, BitVec.toInt_add]

theorem toInt_subU256 (x y : U256) : (subU256 x y).toInt = (x.toInt - y.toInt).bmod (2 ^ 256) := by
  rw [subU256_eq_sub, BitVec.toInt_sub]

/-- Settles O52. -/
theorem addSubLaws : Obligations.AddSubLaws := fun x y l =>
  ⟨toNat_addU256 x y, toNat_addScalar x l, toNat_subU256 x y, addU256_comm x y, subU256_addU256 x y,
    addU256_subU256 x y, toInt_addU256 x y, toInt_subU256 x y⟩

end Sys2Proof.Machine
end

section
/-! The multiplier commands (spec 42_multiply.md R140 to R142): the two commands' results and the laws of their
datapath. -/

namespace Sys2Proof.Machine

/-! ### The two commands -/

/-- The form in which MUL's RES is stated: the limbs' product as a number, at 256 bits (R140). -/
theorem mul128_eq_ofNat (x y : Limb) : mul128 x y = BitVec.ofNat 256 (x.toNat * y.toNat) := by
  rw [← toNat_mul128, BitVec.ofNat_toNat, BitVec.setWidth_eq]

/-- Settles O39. -/
theorem mulIsExactOnLowLimbs : Obligations.MulIsExactOnLowLimbs := by
  intro s rd rs1 rs2 _
  rw [exec_mul, acceptPrimitive_spec, mul128_eq_ofNat]
  rfl

/-- Settles O40. -/
theorem mulwIsModular : Obligations.MulwIsModular := by
  intro s rd rs1 rs2 _
  rw [exec_mulw, acceptPrimitive_spec, mulWide_eq_mul]
  rfl

/-! ### The laws (R142) -/

theorem mul128_comm (x y : Limb) : mul128 x y = mul128 y x := by
  rw [mul128_eq_mul, mul128_eq_mul, BitVec.mul_comm]

theorem mulWide_comm (x y : U256) : mulWide x y = mulWide y x := by
  rw [mulWide_eq_mul, mulWide_eq_mul, BitVec.mul_comm]

theorem toNat_mulWide (x y : U256) : (mulWide x y).toNat = x.toNat * y.toNat % 2 ^ 256 := by
  rw [mulWide_eq_mul, BitVec.toNat_mul]

/-- A U256 without a high limb is its low limb, zero-extended. -/
theorem setWidth_lo_of_hi_eq_zero {v : U256} (h : hi v = 0) : (lo v).setWidth 256 = v := by
  have hhi : v.toNat / 2 ^ 128 = 0 := by rw [← toNat_hi, h]; rfl
  apply BitVec.eq_of_toNat_eq
  rw [BitVec.toNat_setWidth_of_le (by decide), toNat_lo]
  omega

/-- MUL and MULW agree where MUL's dropped high limbs are 0: both multiply the same two numbers. -/
theorem mulWide_eq_mul128_of_hi_eq_zero {x y : U256} (hx : hi x = 0) (hy : hi y = 0) :
    mulWide x y = mul128 (lo x) (lo y) := by
  rw [mulWide_eq_mul, mul128_eq_mul, setWidth_lo_of_hi_eq_zero hx, setWidth_lo_of_hi_eq_zero hy]

/-- Settles O53. -/
theorem multiplyLaws : Obligations.MultiplyLaws := fun x y =>
  ⟨mul128_comm (lo x) (lo y), toNat_mul128 (lo x) (lo y), mulWide_comm x y, toNat_mulWide x y,
    mulWide_eq_mul128_of_hi_eq_zero⟩

end Sys2Proof.Machine
end

section
/-! The Fibonacci identities at a fixed width (spec 43_fib128.md R162, 44_fib256.md R191): a doubling step takes the pair
for m to the pair for 2m + bit. -/

namespace Sys2Proof.Machine

/-- F(k) at the width `w`: what `fibLimb` and `fib256` are at 128 and at 256 bits. -/
def fibWord (w k : Nat) : BitVec w := BitVec.ofNat w (Nat.fib k)

theorem fib256_eq_fibWord (k : Nat) : fib256 k = fibWord 256 k := rfl

theorem fibWord_add_two (w k : Nat) : fibWord w (k + 2) = fibWord w k + fibWord w (k + 1) := by
  rw [fibWord, Nat.fib_add_two, BitVec.ofNat_add]
  rfl

/-- R162's t, 2 F(m+1) - F(m), is the Lucas number L(m), and no number below 0 reduced. -/
theorem fibWord_lucas (w m : Nat) :
    fibWord w (m + 1) + fibWord w (m + 1) - fibWord w m = BitVec.ofNat w (2 * Nat.fib (m + 1) - Nat.fib m) := by
  have hle : Nat.fib m ≤ 2 * Nat.fib (m + 1) := by have := Nat.fib_le_fib_succ (n := m); omega
  rw [BitVec.sub_eq_iff_eq_add]
  simp only [fibWord, ← BitVec.ofNat_add]
  rw [Nat.sub_add_cancel hle, Nat.two_mul]

theorem fibWord_two_mul (w m : Nat) :
    fibWord w (2 * m) = fibWord w m * (fibWord w (m + 1) + fibWord w (m + 1) - fibWord w m) := by
  rw [fibWord_lucas, fibWord, Nat.fib_two_mul, BitVec.ofNat_mul]
  rfl

theorem fibWord_two_mul_add_one (w m : Nat) :
    fibWord w (2 * m + 1) = fibWord w m * fibWord w m + fibWord w (m + 1) * fibWord w (m + 1) := by
  simp only [fibWord, ← BitVec.ofNat_mul, ← BitVec.ofNat_add]
  rw [Nat.fib_two_mul_add_one]
  congr 1
  ring

/-- The doubling identities at any width (43_fib128.md R162). -/
theorem doublingPair_fibWord (w m : Nat) (bit : Bool) :
    doublingPair (fibWord w m * (fibWord w (m + 1) + fibWord w (m + 1) - fibWord w m))
      (fibWord w m * fibWord w m + fibWord w (m + 1) * fibWord w (m + 1)) bit =
      (fibWord w (2 * m + bit.toNat), fibWord w (2 * m + bit.toNat + 1)) := by
  rw [← fibWord_two_mul, ← fibWord_two_mul_add_one]
  cases bit with
  | false => rfl
  | true => rw [Bool.toNat_true, fibWord_add_two w (2 * m)]; rfl

/-- Settles O54. -/
theorem doublingStepAdvancesThePair : Obligations.DoublingStepAdvancesThePair := fun m bit =>
  ⟨(dstep128_eq _ _ bit).trans (doublingPair_fibWord 128 m bit),
    (dstep256Full_eq _ _ bit).trans (doublingPair_fibWord 256 m bit)⟩

end Sys2Proof.Machine
end

section
/-! The engine commands' acceptance (spec 43_fib128.md R161, R163; 44_fib256.md R190): the start rules, case by case. -/

namespace Sys2Proof.Machine

/-! ### The engine commands and their acceptance (20_memory.md R62) -/

/-- The command that runs an engine. -/
def Engine.command : Engine → Reg → Reg → Instr
  | .fibs128 => .fibs128
  | .fibd128 => .fibd128
  | .fibc128 => .fibc128
  | .fibi256 => .fibi256
  | .fibc256 => .fibc256
  | .fibc256w => .fibc256w

/-- The opcode of an engine's command (30_encoding.md R85). -/
def Engine.opcode (e : Engine) : Opcode := (e.command 0 0).opcode

theorem engineOf_opcode (e : Engine) : engineOf e.opcode = some e := by cases e <;> rfl

theorem exec_command (e : Engine) (rd rs1 : Reg) (s : State) :
    exec (e.command rd rs1) s = acceptEngine e.opcode rd rs1 e.start s := by cases e <;> rfl

/-- A command is a primitive, which names no index register, or the command of an engine (R12). -/
theorem primitive_or_engine (i : Instr) : i.indexReg = none ∨ ∃ e rd rs1, i = Engine.command e rd rs1 := by
  cases i with
  | sets | setsi | copy | add | adds | sub | mul | mulw => exact .inl rfl
  | fibs128 rd rs1 => exact .inr ⟨.fibs128, rd, rs1, rfl⟩
  | fibd128 rd rs1 => exact .inr ⟨.fibd128, rd, rs1, rfl⟩
  | fibc128 rd rs1 => exact .inr ⟨.fibc128, rd, rs1, rfl⟩
  | fibi256 rd rs1 => exact .inr ⟨.fibi256, rd, rs1, rfl⟩
  | fibc256 rd rs1 => exact .inr ⟨.fibc256, rd, rs1, rfl⟩
  | fibc256w rd rs1 => exact .inr ⟨.fibc256w, rd, rs1, rfl⟩

/-- An index that is not negative as a signed number has its top bit clear (10_state.md R26). -/
theorem msb_eq_false_of_nonneg {k : BitVec 64} (h : 0 ≤ k.toInt) : k.msb = false :=
  Bool.eq_false_of_not_eq_true fun hneg => absurd ((indexNegative_iff k).2 hneg) (Int.not_lt.2 h)

theorem toNat_lt_of_msb_eq_false {k : BitVec 64} (h : k.msb = false) : k.toNat < 2 ^ 63 := by
  rw [BitVec.msb_eq_decide, decide_eq_false_iff_not] at h
  omega

/-- With an index that is not negative, an engine command is its latches followed by its start rule. -/
theorem acceptEngine_of_msb_eq_false {s : State} {rs1 : Reg} (h : (s.index rs1).msb = false) (op : Opcode) (rd : Reg)
    (start : State → State) : acceptEngine op rd rs1 start s = .next (start (s.acceptedEngine op rd rs1)) :=
  if_neg (by simp [indexNegative, h])

/-! ### The start rules (R161, R163; 44_fib256.md R190) -/

theorem indexResult_eq_setWidth (k : BitVec 64) : indexResult k = k.setWidth 256 := by
  apply BitVec.eq_of_toNat_eq
  rw [indexResult, toNat_u256, BitVec.toNat_setWidth_of_le (by decide), BitVec.toNat_setWidth_of_le (by decide)]
  simp

section Start
variable {s : State}

theorem startIterative_of_lt (h : s.k.toNat < 2) :
    s.startIterative = { s with res := s.k.setWidth 256, ph := .commit } := by
  rw [State.startIterative, if_pos h, indexResult_eq_setWidth, State.engineResult]

theorem startIterative_of_le (h : 2 ≤ s.k.toNat) :
    s.startIterative = { s with n := s.k, a := 0, b := 1, i := 2, ph := .loop } := by
  rw [State.startIterative, if_neg (Nat.not_lt.2 h)]

theorem startDoubling_of_lt (h : s.k.toNat < 2) :
    s.startDoubling = { s with res := s.k.setWidth 256, ph := .commit } := by
  rw [State.startDoubling, if_pos h, indexResult_eq_setWidth, State.engineResult]

theorem toNat_index_pred {k : BitVec 64} (h : 1 ≤ k.toNat) : (k - 1).toNat = k.toNat - 1 := by bv_omega

/-- K = 2 has N = 1, whose bit 0 is its only one: the pair for 1 is already there. -/
theorem startDoubling_of_eq_two (h : s.k.toNat = 2) :
    s.startDoubling = { s with n := 1, j := 0, a := 1, b := 1, res := 1, ph := .commit } := by
  have hk : s.k = 2 := BitVec.eq_of_toNat_eq h
  rw [State.startDoubling, hk]
  rfl

/-- The bit scan fits J: an index that is not negative has its bits below 63. -/
theorem toNat_msbIndex {n : BitVec 64} (h : n.toNat < 2 ^ 63) : (msbIndex n).toNat = n.toNat.log2 := by
  have hlog : n.toNat.log2 < 63 := by
    rcases Nat.eq_zero_or_pos n.toNat with h0 | hpos
    · simp [h0]
    · exact (Nat.log2_lt hpos.ne').2 h
  rw [msbIndex, BitVec.toNat_ofNat, Nat.mod_eq_of_lt (by omega)]

theorem one_le_log2 {n : Nat} (h : 2 ≤ n) : 1 ≤ n.log2 := (Nat.le_log2 (by omega)).2 h

theorem startDoubling_of_le (hmsb : s.k.msb = false) (h : 3 ≤ s.k.toNat) :
    s.startDoubling =
      { s with n := s.k - 1, j := BitVec.ofNat 7 (s.k.toNat - 1).log2, a := 1, b := 1, ph := .loop } := by
  have hn : (s.k - 1).toNat = s.k.toNat - 1 := toNat_index_pred (by omega)
  have hlt := toNat_lt_of_msb_eq_false hmsb
  have hscan : msbIndex (s.k - 1) = BitVec.ofNat 7 (s.k.toNat - 1).log2 := by rw [msbIndex, hn]
  have hj : (msbIndex (s.k - 1)).toNat = (s.k.toNat - 1).log2 := by rw [toNat_msbIndex (by omega), hn]
  have hne : msbIndex (s.k - 1) ≠ 0 := fun h0 => by
    have := one_le_log2 (n := s.k.toNat - 1) (by omega)
    rw [h0] at hj
    exact absurd hj (by simp; omega)
  rw [State.startDoubling, if_neg (by omega)]
  dsimp only
  rw [if_neg hne, hscan]

end Start

/-- Settles O42. -/
theorem iterativeEnginesStart : Obligations.IterativeEnginesStart := by
  intro s rd rs1 k _ hk hnonneg
  subst hk
  have hmsb : (s.index rs1).msb = false := msb_eq_false_of_nonneg hnonneg
  rw [exec_fibs128, exec_fibi256, acceptEngine_of_msb_eq_false hmsb, acceptEngine_of_msb_eq_false hmsb]
  refine ⟨fun hlt => ?_, fun hle => ?_⟩
  · rw [startIterative_of_lt (s := s.acceptedEngine 0x30#8 rd rs1) hlt,
      startIterative_of_lt (s := s.acceptedEngine 0x38#8 rd rs1) hlt]
    exact ⟨rfl, rfl⟩
  · rw [startIterative_of_le (s := s.acceptedEngine 0x30#8 rd rs1) hle,
      startIterative_of_le (s := s.acceptedEngine 0x38#8 rd rs1) hle]
    exact ⟨rfl, rfl⟩

/-- Settles O43: the four engines have one start rule. -/
theorem doublingEnginesStart : Obligations.DoublingEnginesStart := by
  intro s rd rs1 k _ hk hnonneg p hp
  subst hk
  have hmsb : (s.index rs1).msb = false := msb_eq_false_of_nonneg hnonneg
  have hexec : exec p.1 s = .next (s.acceptedEngine p.2 rd rs1).startDoubling := by
    simp only [List.mem_cons, List.not_mem_nil, or_false] at hp
    rcases hp with rfl | rfl | rfl | rfl <;> exact acceptEngine_of_msb_eq_false hmsb ..
  rw [hexec]
  refine ⟨fun hlt => ?_, fun heq => ?_, fun hle => ?_⟩
  · rw [startDoubling_of_lt (s := s.acceptedEngine p.2 rd rs1) hlt]
    rfl
  · rw [startDoubling_of_eq_two (s := s.acceptedEngine p.2 rd rs1) heq]
  · rw [startDoubling_of_le (s := s.acceptedEngine p.2 rd rs1) hmsb hle]
    rfl

end Sys2Proof.Machine
end

section
/-! One more iteration of an engine, as a function of the pair (A, B), and what it keeps (spec 10_state.md R28,
43_fib128.md R164, 44_fib256.md R196, R198). -/

namespace Sys2Proof.Machine

/-! ### One more iteration, as a function of the pair -/

/-- The pair after one more iteration; `bit` is the bit of N that a doubling engine takes. -/
def Engine.pairStep (e : Engine) (a b : U256) (bit : Bool) : U256 × U256 :=
  match e with
  | .fibs128 => (u256 0 (lo b), u256 0 (lo a + lo b))
  | .fibi256 => (b, a + b)
  | e => e.doublingStep a b bit

/-- The index m of the pair after one more iteration: the next one, or m with `bit` appended (43_fib128.md R164). -/
def Engine.extend (e : Engine) (m : Nat) (bit : Bool) : Nat := if e.iterative then m + 1 else 2 * m + bit.toNat

/-- The LOOP steps a running command still takes: up to I = N, or down to J = 0. -/
def Engine.remaining (e : Engine) (s : State) : Nat := if e.iterative then s.n.toNat + 1 - s.i.toNat else s.j.toNat

/-- The model's iteration is `pairStep`, whose bit for a doubling engine is N[J - 1]. -/
theorem nextPair_eq_pairStep (e : Engine) (s : State) :
    nextPair e s = e.pairStep s.a s.b (s.n.getLsbD (e.remaining s - 1)) := by
  cases e with
  | fibs128 | fibi256 => rfl
  | fibd128 | fibc128 | fibc256 | fibc256w => exact (doublingStep_eq_nextPair rfl s).symm

/-! ### FIBC256's products of low limbs (44_fib256.md R191, R196) -/

/-- The low limb of a U256 as its value mod 2^128. -/
theorem lo_eq_setWidth (v : U256) : lo v = v.setWidth 128 := by
  apply BitVec.eq_of_toNat_eq
  rw [toNat_lo, BitVec.toNat_setWidth]

theorem lo_add (x y : U256) : lo (x + y) = lo x + lo y := by
  simp only [lo_eq_setWidth, BitVec.setWidth_add _ _ (by decide : 128 ≤ 256)]

theorem lo_sub (x y : U256) : lo (x - y) = lo x - lo y := by
  rw [eq_comm, BitVec.sub_eq_iff_eq_add, ← lo_add, BitVec.sub_add_cancel]

theorem lo_mul (x y : U256) : lo (x * y) = lo x * lo y := by
  simp only [lo_eq_setWidth, BitVec.setWidth_mul _ _ (by decide : 128 ≤ 256)]

theorem lo_setWidth (l : Limb) : lo (l.setWidth 256) = l := by
  rw [lo_eq_setWidth, BitVec.setWidth_setWidth_of_le _ (by decide), BitVec.setWidth_eq]

theorem lo_fib256 (k : Nat) : lo (fib256 k) = fibLimb k := by
  apply BitVec.eq_of_toNat_eq
  rw [toNat_lo, fib256, fibLimb, BitVec.toNat_ofNat, BitVec.toNat_ofNat]
  omega

theorem lo_fib128 (k : Nat) : lo (fib128 k) = fibLimb k := lo_u256 0 _

theorem fib128_eq_setWidth (k : Nat) : fib128 k = (fibLimb k).setWidth 256 := by
  apply BitVec.eq_of_toNat_eq
  rw [fib128, toNat_u256, BitVec.toNat_setWidth_of_le (by decide)]
  simp

/-- F(186) is the last Fibonacci number of one limb. -/
theorem fib_lt_limb_iff (k : Nat) : Nat.fib k < 2 ^ 128 ↔ k ≤ 186 := by
  have hin : Nat.fib 186 < 2 ^ 128 := by norm_num
  have hout : 2 ^ 128 ≤ Nat.fib 187 := by norm_num
  refine ⟨fun h => ?_, fun h => (Nat.fib_mono h).trans_lt hin⟩
  by_contra hk
  exact absurd (hout.trans (Nat.fib_mono (by omega : 187 ≤ k))) (Nat.not_le.2 h)

/-- F(370) is the last Fibonacci number of 256 bits. -/
theorem fib_lt_u256_iff (k : Nat) : Nat.fib k < 2 ^ 256 ↔ k ≤ 370 := by
  have hin : Nat.fib 370 < 2 ^ 256 := by norm_num
  have hout : 2 ^ 256 ≤ Nat.fib 371 := by norm_num
  refine ⟨fun h => ?_, fun h => (Nat.fib_mono h).trans_lt hin⟩
  by_contra hk
  exact absurd (hout.trans (Nat.fib_mono (by omega : 371 ≤ k))) (Nat.not_le.2 h)

/-- Up to F(186) the low limb is the whole number. -/
theorem setWidth_fibLimb {k : Nat} (h : k ≤ 186) : (fibLimb k).setWidth 256 = fib256 k := by
  have hlt := (fib_lt_limb_iff k).2 h
  apply BitVec.eq_of_toNat_eq
  rw [BitVec.toNat_setWidth_of_le (by decide), fibLimb, fib256, BitVec.toNat_ofNat, BitVec.toNat_ofNat,
    Nat.mod_eq_of_lt hlt, Nat.mod_eq_of_lt (hlt.trans (by decide))]

/-- 2 F(m+1) - F(m) is F(m+1) + F(m-1), which fits one limb up to m = 184. -/
theorem fib_lucas_lt {m : Nat} (h : m ≤ 184) : 2 * Nat.fib (m + 1) - Nat.fib m < 2 ^ 128 := by
  cases m with
  | zero => decide
  | succ m =>
    have hlt := (fib_lt_limb_iff (m + 3)).2 (by omega)
    have hmono := Nat.fib_le_fib_succ (n := m)
    have h2 : Nat.fib (m + 1 + 1) = Nat.fib m + Nat.fib (m + 1) := Nat.fib_add_two
    have h3 : Nat.fib (m + 3) = Nat.fib (m + 1) + Nat.fib (m + 1 + 1) := Nat.fib_add_two
    omega

theorem setWidth_ofNat_limb {n : Nat} (h : n < 2 ^ 128) : (BitVec.ofNat 128 n).setWidth 256 = BitVec.ofNat 256 n := by
  apply BitVec.eq_of_toNat_eq
  rw [BitVec.toNat_setWidth_of_le (by decide), BitVec.toNat_ofNat, BitVec.toNat_ofNat, Nat.mod_eq_of_lt h,
    Nat.mod_eq_of_lt (h.trans (by decide))]

/-- The even product of R191's low-limb step is whole while both of its factors fit one limb. -/
theorem lowLimb_even {m : Nat} (h : m ≤ 184) :
    (fibLimb m).setWidth 256 * (fibLimb (m + 1) + fibLimb (m + 1) - fibLimb m).setWidth 256 = fib256 (2 * m) := by
  rw [fib256_eq_fibWord, fibWord_two_mul, setWidth_fibLimb (by omega), fibWord_lucas,
    ← setWidth_ofNat_limb (fib_lucas_lt h), ← fibWord_lucas]
  rfl

theorem lowLimb_odd {m : Nat} (h : m ≤ 185) :
    (fibLimb m).setWidth 256 * (fibLimb m).setWidth 256 +
      (fibLimb (m + 1)).setWidth 256 * (fibLimb (m + 1)).setWidth 256 = fib256 (2 * m + 1) := by
  rw [setWidth_fibLimb (by omega), setWidth_fibLimb (by omega), fib256_eq_fibWord (2 * m + 1),
    fibWord_two_mul_add_one]
  rfl

/-- R191's low-limb step keeps the low limbs of the pair right for every m, and the whole values as far as PairOk
says: it reads nothing but the low limbs of the pair before (R196, R198). -/
theorem pairOk_dstep256Lo {m : Nat} {a b : U256} (ha : lo a = fibLimb m) (hb : lo b = fibLimb (m + 1)) (bit : Bool) :
    PairOk .fibc256 (2 * m + bit.toNat) (dstep256Lo a b bit).1 (dstep256Lo a b bit).2 := by
  have heven : fibLimb m * (fibLimb (m + 1) + fibLimb (m + 1) - fibLimb m) = fibLimb (2 * m) :=
    (fibWord_two_mul 128 m).symm
  have hodd : fibLimb m * fibLimb m + fibLimb (m + 1) * fibLimb (m + 1) = fibLimb (2 * m + 1) :=
    (fibWord_two_mul_add_one 128 m).symm
  have hnext : fibLimb (2 * m) + fibLimb (2 * m + 1) = fibLimb (2 * m + 2) := (fibWord_add_two 128 (2 * m)).symm
  have hnext' : fib256 (2 * m) + fib256 (2 * m + 1) = fib256 (2 * m + 2) := (fibWord_add_two 256 (2 * m)).symm
  rw [dstep256Lo_eq, lo_sub, lo_add, ha, hb]
  cases bit with
  | false =>
    refine ⟨?_, ?_, fun h => lowLimb_even ?_, fun h => lowLimb_odd ?_⟩
    · simp [doublingPair, lo_mul, lo_setWidth, heven]
    · simp [doublingPair, lo_add, lo_mul, lo_setWidth, hodd]
    · simp at h; omega
    · simp at h; omega
  | true =>
    refine ⟨?_, ?_, fun h => lowLimb_odd ?_, fun h => ?_⟩
    · simp [doublingPair, lo_add, lo_mul, lo_setWidth, hodd]
    · simp [doublingPair, lo_add, lo_mul, lo_setWidth, heven, hodd, hnext]
    · simp at h; omega
    · have hm : m ≤ 184 := by simp at h; omega
      simp [doublingPair, lowLimb_even hm, lowLimb_odd (m := m) (by omega), hnext']

theorem dstep128Pair_fib128 (m : Nat) (bit : Bool) :
    dstep128Pair (fib128 m) (fib128 (m + 1)) bit = (fib128 (2 * m + bit.toNat), fib128 (2 * m + bit.toNat + 1)) := by
  rw [dstep128Pair, lo_fib128, lo_fib128, (doublingStepAdvancesThePair m bit).1]
  rfl

/-- One more iteration takes the pair for m to the pair for the next m (R28, R164). -/
theorem PairOk.pairStep {e : Engine} {m : Nat} {a b : U256} (h : PairOk e m a b) (bit : Bool) :
    PairOk e (e.extend m bit) (e.pairStep a b bit).1 (e.pairStep a b bit).2 := by
  cases e with
  | fibs128 =>
    obtain ⟨rfl, rfl⟩ := h
    refine ⟨congrArg (u256 0) (lo_fib128 (m + 1)), congrArg (u256 0) ?_⟩
    rw [lo_fib128, lo_fib128]
    exact (fibWord_add_two 128 m).symm
  | fibi256 =>
    obtain ⟨rfl, rfl⟩ := h
    exact ⟨rfl, (fibWord_add_two 256 m).symm⟩
  | fibd128 | fibc128 =>
    obtain ⟨rfl, rfl⟩ := h
    exact Prod.ext_iff.1 (dstep128Pair_fib128 m bit)
  | fibc256 =>
    obtain ⟨ha, hb, -⟩ := h
    exact pairOk_dstep256Lo ha hb bit
  | fibc256w =>
    obtain ⟨rfl, rfl⟩ := h
    exact Prod.ext_iff.1 (doublingStepAdvancesThePair m bit).2

/-- B of the pair for K - 1 is the result for K (R164). -/
theorem PairOk.result {e : Engine} {m : Nat} {a b : U256} (h : PairOk e m a b) : ResultOk e (m + 1) b := by
  cases e with
  | fibs128 | fibd128 | fibc128 | fibi256 | fibc256w => exact h.2
  | fibc256 =>
    obtain ⟨-, hb, -, hwhole⟩ := h
    exact ⟨hb, fun hm => hwhole (by omega)⟩

theorem resultOk_fib256 (e : Engine) {k : Nat} (hk : k ≤ 186) : ResultOk e k (fib256 k) := by
  have h128 : fib256 k = fib128 k := by rw [fib128_eq_setWidth, setWidth_fibLimb hk]
  cases e with
  | fibs128 | fibd128 | fibc128 => exact h128
  | fibi256 | fibc256w => exact rfl
  | fibc256 => exact ⟨lo_fib256 k, fun _ => rfl⟩

/-- An index below 2 is its own Fibonacci number (R161, R163). -/
theorem resultOk_index (e : Engine) {k : BitVec 64} (h : k.toNat < 2) : ResultOk e k.toNat (k.setWidth 256) := by
  have hfib : k.setWidth 256 = fib256 k.toNat := by
    apply BitVec.eq_of_toNat_eq
    rw [BitVec.toNat_setWidth]
    have : k.toNat = 0 ∨ k.toNat = 1 := by omega
    rcases this with h0 | h1
    · rw [h0]; rfl
    · rw [h1]; rfl
  rw [hfib]
  exact resultOk_fib256 e (by omega)

theorem pairOk_iterative_first {e : Engine} (he : e.iterative = true) : PairOk e 0 0 1 := by
  cases e with
  | fibs128 => exact ⟨rfl, rfl⟩
  | fibi256 => exact ⟨rfl, rfl⟩
  | fibd128 | fibc128 | fibc256 | fibc256w => cases he

theorem pairOk_doubling_first {e : Engine} (he : e.iterative = false) : PairOk e 1 1 1 := by
  cases e with
  | fibs128 | fibi256 => cases he
  | fibd128 | fibc128 => exact ⟨rfl, rfl⟩
  | fibc256 => exact ⟨rfl, rfl, fun _ => rfl, fun _ => rfl⟩
  | fibc256w => exact ⟨rfl, rfl⟩

end Sys2Proof.Machine
end

section
/-! The engine's invariant (spec 43_fib128.md R164): every step keeps it, with the steps still to take and the value they
lead to. -/

namespace Sys2Proof.Machine

/-! ### The invariant through a LOOP step -/

/-- One more bit of N joins the leading bits already taken (R164). -/
theorem shiftRight_pred_eq (n : BitVec 64) {j : Nat} (h : 1 ≤ j) :
    n.toNat >>> (j - 1) = 2 * (n.toNat >>> j) + (n.getLsbD (j - 1)).toNat := by
  obtain ⟨i, rfl⟩ := Nat.exists_eq_add_of_le' h
  rw [Nat.add_sub_cancel, ← BitVec.testBit_toNat, Nat.toNat_testBit, Nat.shiftRight_succ, ← Nat.shiftRight_eq_div_pow]
  omega

/-- What a LOOP step of a running command leaves: the next pair, and the command still running with one step less to
take, or after the last one, its result in COMMIT. -/
def LoopStepOk (e : Engine) (s t : State) : Prop :=
  (t.a, t.b) = e.pairStep s.a s.b (s.n.getLsbD (e.remaining s - 1)) ∧
  ((2 ≤ e.remaining s ∧ t.ph = .loop ∧ LoopOk e t ∧ e.remaining t = e.remaining s - 1) ∨
    (e.remaining s = 1 ∧ t.ph = .commit ∧ t.res = t.b ∧ ResultOk e t.k.toNat t.res))

theorem LoopOk.loopOf_iterative {e : Engine} {s : State} (he : e.iterative = true) (hph : s.ph = .loop)
    (hmsb : s.k.msb = false) (h : LoopOk e s) : LoopStepOk e s (loopOf e s) := by
  simp only [LoopOk, he, if_true] at h
  obtain ⟨hn, hi, hin, hpair⟩ := h
  have hk := toNat_lt_of_msb_eq_false hmsb
  obtain ⟨-, -, -, -, -, -, -, htk, htn, -⟩ := loopOf_frame e s
  obtain ⟨hab, hti, -, hlast⟩ := loopOf_iterative_spec he hph (s := s) (by rw [hn] at hin; omega)
  rw [nextPair_eq_pairStep] at hab
  have hstep := hpair.pairStep (s.n.getLsbD (e.remaining s - 1))
  rw [← hab] at hstep
  simp only [Engine.extend, he, if_true] at hstep
  refine ⟨hab, ?_⟩
  simp only [LoopOk, Engine.remaining, he, if_true, htk, htn, hti]
  split at hlast
  · next hcommit =>
    obtain ⟨htph, hres⟩ := hlast
    refine .inr ⟨by omega, htph, hres, ?_⟩
    have hkm : s.k.toNat = s.i.toNat - 2 + 1 + 1 := by rw [← hn]; omega
    rw [hres, hkm]
    exact hstep.result
  · next hloop =>
    obtain ⟨htph, -⟩ := hlast
    have hm : s.i.toNat + 1 - 2 = s.i.toNat - 2 + 1 := by omega
    exact .inl ⟨by omega, htph, ⟨hn, by omega, by omega, by rw [hm]; exact hstep⟩, by omega⟩

theorem LoopOk.loopOf_doubling {e : Engine} {s : State} (he : e.iterative = false) (hph : s.ph = .loop)
    (h : LoopOk e s) : LoopStepOk e s (loopOf e s) := by
  simp only [LoopOk, he, Bool.false_eq_true, if_false] at h
  obtain ⟨hn, hk, hj, hj', hm, hpair⟩ := h
  obtain ⟨-, -, -, -, -, -, -, htk, htn, -⟩ := loopOf_frame e s
  obtain ⟨hab, htj, -, hlast⟩ := loopOf_doubling_spec he hph hj
  rw [nextPair_eq_pairStep] at hab
  have hstep := hpair.pairStep (s.n.getLsbD (e.remaining s - 1))
  rw [← hab] at hstep
  have hextend := shiftRight_pred_eq s.n hj
  simp only [Engine.extend, Engine.remaining, he, Bool.false_eq_true, if_false, ← hextend] at hstep
  refine ⟨hab, ?_⟩
  simp only [LoopOk, Engine.remaining, he, Bool.false_eq_true, if_false, htk, htn, htj]
  split at hlast
  · next hcommit =>
    obtain ⟨htph, hres⟩ := hlast
    refine .inr ⟨hcommit, htph, hres, ?_⟩
    have hkm : s.k.toNat = s.n.toNat >>> (s.j.toNat - 1) + 1 := by
      rw [hcommit, hn, toNat_index_pred (by omega)]
      simp; omega
    rw [hres, hkm]
    exact hstep.result
  · next hloop =>
    obtain ⟨htph, -⟩ := hlast
    exact .inl ⟨by omega, htph, ⟨hn, hk, by omega, by omega, by omega, hstep⟩, trivial⟩

theorem LoopOk.loopOf {e : Engine} {s : State} (hph : s.ph = .loop) (hmsb : s.k.msb = false) (h : LoopOk e s) :
    LoopStepOk e s (loopOf e s) := by
  cases he : e.iterative with
  | true => exact h.loopOf_iterative he hph hmsb
  | false => exact h.loopOf_doubling he hph

/-! ### The invariant at acceptance -/

/-- The LOOP steps of an engine command with index `k` (70_reset_and_hazards.md R260). -/
def Engine.steps (e : Engine) (k : Nat) : Nat := if e.iterative then iterativeSteps k else doublingSteps k

/-- The pair after `r` more iterations, the last of them on bit 0 of N. -/
def Engine.finalPair (e : Engine) (n : BitVec 64) : Nat → U256 × U256 → U256 × U256
  | 0, p => p
  | r + 1, p => e.finalPair n r (e.pairStep p.1 p.2 (n.getLsbD r))

/-- The value an engine command commits, as a function of its index alone (R170, 44_fib256.md R199): below 2 the index,
else B of the pair that the LOOP steps make of the start rule's pair and N (R161, R163). -/
def Engine.value (e : Engine) (k : BitVec 64) : U256 :=
  if k.toNat < 2 then k.setWidth 256
  else if e.iterative then (e.finalPair k (e.steps k.toNat) (0, 1)).2
  else (e.finalPair (k - 1) (e.steps k.toNat) (1, 1)).2

/-- The leading bits of a number, down to its most significant one, are that bit alone. -/
theorem shiftRight_log2 {n : Nat} (h : n ≠ 0) : n >>> n.log2 = 1 := by
  rw [Nat.shiftRight_eq_div_pow]
  refine Nat.div_eq_of_lt_le ?_ ?_
  · simpa using Nat.log2_self_le h
  · have := Nat.lt_log2_self (n := n)
    rw [Nat.pow_succ] at this
    omega

/-- What a start rule leaves: the result in COMMIT, or a running command with all its LOOP steps to take. -/
def StartOk (e : Engine) (s t : State) : Prop :=
  (e.steps s.k.toNat = 0 ∧ t.ph = .commit ∧ t.res = e.value s.k ∧ ResultOk e s.k.toNat t.res) ∨
  (e.remaining t = e.steps s.k.toNat ∧ t.ph = .loop ∧ LoopOk e t ∧
    (e.finalPair t.n (e.remaining t) (t.a, t.b)).2 = e.value s.k)

theorem Engine.steps_of_lt (e : Engine) {k : Nat} (h : k < 2) : e.steps k = 0 := by
  unfold Engine.steps iterativeSteps doublingSteps
  split
  · omega
  · rfl

theorem startOk_of_lt (e : Engine) {s : State} (h : s.k.toNat < 2) :
    StartOk e s { s with res := s.k.setWidth 256, ph := .commit } :=
  .inl ⟨e.steps_of_lt h, rfl, (if_pos h).symm, resultOk_index e h⟩

theorem startOk_iterative {e : Engine} (he : e.iterative = true) (s : State) : StartOk e s s.startIterative := by
  rcases Nat.lt_or_ge s.k.toNat 2 with hlt | hle
  · rw [startIterative_of_lt hlt]
    exact startOk_of_lt e hlt
  · have hsteps : e.steps s.k.toNat = s.k.toNat - 1 := by rw [Engine.steps, if_pos he, iterativeSteps]
    have hremaining : e.remaining s.startIterative = e.steps s.k.toNat := by
      rw [startIterative_of_le hle, Engine.remaining, if_pos he, hsteps]
      rfl
    refine .inr ⟨hremaining, ?_⟩
    rw [hremaining, startIterative_of_le hle]
    refine ⟨rfl, ?_, ?_⟩
    · rw [LoopOk, if_pos he]
      exact ⟨rfl, le_refl 2, hle, pairOk_iterative_first he⟩
    · rw [Engine.value, if_neg (by omega), if_pos he]

section Doubling
variable {e : Engine} {s : State}

theorem Engine.steps_doubling (he : e.iterative = false) {k : Nat} (h : 2 ≤ k) : e.steps k = (k - 1).log2 := by
  rw [Engine.steps, if_neg (by simp [he]), doublingSteps, if_neg (by omega)]

theorem Engine.value_doubling (he : e.iterative = false) {k : BitVec 64} (h : 2 ≤ k.toNat) :
    e.value k = (e.finalPair (k - 1) (k.toNat - 1).log2 (1, 1)).2 := by
  rw [Engine.value, if_neg (by omega), if_neg (by simp [he]), Engine.steps_doubling he h]

theorem startOk_doubling_of_eq_two (he : e.iterative = false) (h : s.k.toNat = 2) :
    StartOk e s { s with n := 1, j := 0, a := 1, b := 1, res := 1, ph := .commit } := by
  refine .inl ⟨?_, rfl, ?_, ?_⟩
  · rw [Engine.steps_doubling he h.ge, h]
    rfl
  · rw [Engine.value_doubling he h.ge, h]
    rfl
  · rw [h]
    exact resultOk_fib256 e (by decide)

theorem startOk_doubling_of_le (he : e.iterative = false) (hmsb : s.k.msb = false) (h : 3 ≤ s.k.toNat) :
    StartOk e s { s with
      n := s.k - 1, j := BitVec.ofNat 7 (s.k.toNat - 1).log2, a := 1, b := 1, ph := .loop } := by
  have hk := toNat_lt_of_msb_eq_false hmsb
  have hn : (s.k - 1).toNat = s.k.toNat - 1 := toNat_index_pred (by omega)
  have hj : (BitVec.ofNat 7 (s.k.toNat - 1).log2).toNat = (s.k.toNat - 1).log2 := by
    rw [← hn]
    exact toNat_msbIndex (by omega)
  have hscan : (s.k.toNat - 1) >>> (s.k.toNat - 1).log2 = 1 := shiftRight_log2 (by omega)
  have hlog : (s.k.toNat - 1).log2 ≤ 62 := Nat.le_of_lt_succ ((Nat.log2_lt (by omega)).2 (by omega))
  rw [StartOk, Engine.steps_doubling he (by omega), Engine.value_doubling he (by omega)]
  simp only [Engine.remaining, LoopOk, he, Bool.false_eq_true, if_false, hj, hn, hscan, true_and,
    and_true]
  exact .inr ⟨by omega, one_le_log2 (by omega), hlog, le_refl 1, pairOk_doubling_first he⟩

theorem startOk_doubling (he : e.iterative = false) (hmsb : s.k.msb = false) : StartOk e s s.startDoubling := by
  rcases lt_trichotomy s.k.toNat 2 with hlt | heq | hgt
  · rw [startDoubling_of_lt hlt]
    exact startOk_of_lt e hlt
  · rw [startDoubling_of_eq_two heq]
    exact startOk_doubling_of_eq_two he heq
  · rw [startDoubling_of_le hmsb hgt]
    exact startOk_doubling_of_le he hmsb hgt

end Doubling

theorem Engine.start_startOk (e : Engine) {s : State} (hmsb : s.k.msb = false) : StartOk e s (e.start s) := by
  unfold Engine.start
  cases he : e.iterative with
  | true => exact startOk_iterative he s
  | false => exact startOk_doubling he hmsb

/-! ### Every step keeps the invariant -/

theorem engineInv_of_idle {s : State} (h : s.ph = .idle) : EngineInv s := by
  rw [EngineInv, h]
  trivial

/-- Settles O30: an IDLE engine has nothing to keep. -/
theorem engineInvariantAtReset : Obligations.EngineInvariantAtReset := engineInv_of_idle rfl

theorem engineInv_of_loop {s : State} {e : Engine} (h : s.ph = .loop) (he : engineOf s.op = some e)
    (hmsb : s.k.msb = false) (hok : LoopOk e s) : EngineInv s := by
  rw [EngineInv, h]
  exact ⟨e, he, hmsb, hok⟩

theorem engineInv_of_commit {s : State} {e : Engine} (h : s.ph = .commit) (he : engineOf s.op = some e)
    (hmsb : s.k.msb = false) (hok : ResultOk e s.k.toNat s.res) : EngineInv s := by
  rw [EngineInv, h]
  intro e' he'
  cases he.symm.trans he'
  exact ⟨hmsb, hok⟩

/-- A primitive waits in COMMIT under an opcode that is no engine command's. -/
theorem exec_primitive_commit {i : Instr} (h : i.indexReg = none) {s t : State} (hx : exec i s = .next t) :
    t.ph = .commit ∧ engineOf t.op = none := by
  cases i with
  | sets | setsi | copy | add | adds | sub | mul | mulw =>
    cases hx
    exact ⟨rfl, rfl⟩
  | fibs128 | fibd128 | fibc128 | fibi256 | fibc256 | fibc256w => cases h

theorem engineInv_exec {i : Instr} {s t : State} (hph : s.ph = .idle) (hx : exec i s = .next t) : EngineInv t := by
  rcases primitive_or_engine i with hi | ⟨e, rd, rs1, rfl⟩
  · obtain ⟨htph, htop⟩ := exec_primitive_commit hi hx
    rw [EngineInv, htph]
    intro e he
    cases htop.symm.trans he
  · rw [exec_command] at hx
    rcases acceptEngine_cases e.opcode rd rs1 e.start s with ⟨-, hrej⟩ | ⟨hneg, hacc⟩
    · cases hrej.symm.trans hx
      exact engineInv_of_idle hph
    · cases hacc.symm.trans hx
      have hmsb : ({ s.latch e.opcode rd rs1 0 with k := s.index rs1 } : State).k.msb = false := hneg
      obtain ⟨-, -, hop, -, -, -, -, hk, -⟩ := e.start_frame { s.latch e.opcode rd rs1 0 with k := s.index rs1 }
      have hengine := (congrArg engineOf hop).trans (engineOf_opcode e)
      have hmsb' := (congrArg BitVec.msb hk).trans hmsb
      rcases e.start_startOk hmsb with ⟨-, hcommit, -, hres⟩ | ⟨-, hloop, hok, -⟩
      · exact engineInv_of_commit hcommit hengine hmsb' (hk.symm ▸ hres)
      · exact engineInv_of_loop hloop hengine hmsb' hok

section Kept
variable {s t : State}

theorem EngineInv.kept (h : EngineInv s) (hkept : CommandKept s t) : EngineInv t := by
  obtain ⟨-, hph, hop, -, -, -, -, hk, hres, ha, hb, hn, hj, hi⟩ := hkept
  unfold EngineInv LoopOk
  rw [hph, hop, hk, hres, ha, hb, hn, hj, hi]
  exact h

theorem idle_of_not_busy (h : s.busy = false) : s.ph = .idle := by simpa [State.busy] using h

theorem engineInv_cmdWrite_idle (hph : s.ph = .idle) {v : Word} (hx : cmdWrite v s = .next t) : EngineInv t := by
  rw [cmdWrite_idle v s hph] at hx
  cases hd : decode v with
  | rejected c =>
    rw [hd] at hx
    cases hx
    exact engineInv_of_idle hph
  | command i =>
    rw [hd] at hx
    exact engineInv_exec hph hx

theorem engineInv_windowWrite_idle (hidle : s.busy = false) {g : WindowReg} {v : Word}
    (hx : windowWrite g v s = .next t) : EngineInv t := by
  have hph := idle_of_not_busy hidle
  cases g with
  | id | ctrl | status | errcode | reserved => cases hx; exact engineInv_of_idle hph
  | cmd => exact engineInv_cmdWrite_idle hph hx
  | wWord r j =>
    cases hx
    rw [wWindowWrite_idle hidle]
    exact engineInv_of_idle hph

theorem engineInv_hostAccess_idle (hidle : s.busy = false) {x : HostAccess} (hx : hostAccess x s = .next t) :
    EngineInv t := by
  have hph := idle_of_not_busy hidle
  cases hoff : x.addr.windowOffset? with
  | none => cases (hostAccess_outside hoff s).symm.trans hx
  | some off =>
    rw [hostAccess_inside hoff] at hx
    rcases windowAccess_cases off x.op s with ⟨-, -, hread⟩ | ⟨v, -, -, hwrite⟩ | ⟨-, hbus⟩
    · cases hread.symm.trans hx
      exact engineInv_of_idle hph
    · exact engineInv_windowWrite_idle (s := { s with resp := .written }) hidle (hwrite.symm.trans hx)
    · cases hbus.symm.trans hx
      exact engineInv_of_idle hph

/-- A host access keeps a running command as it is, or starts one. -/
theorem EngineInv.hostAccess (h : EngineInv s) {x : HostAccess} (hx : hostAccess x s = .next t) : EngineInv t := by
  cases hbusy : s.busy with
  | true => exact h.kept (commandKept_hostAccess hbusy hx)
  | false => exact engineInv_hostAccess_idle hbusy hx

theorem EngineInv.loop (h : EngineInv s) (hph : s.ph = .loop) :
    ∃ e, engineOf s.op = some e ∧ s.k.msb = false ∧ LoopOk e s := by
  rw [EngineInv, hph] at h
  exact h

theorem EngineInv.loopOf (h : EngineInv s) (hph : s.ph = .loop) {e : Engine} (he : engineOf s.op = some e) :
    EngineInv (loopOf e s) := by
  obtain ⟨e', he', hmsb, hok⟩ := h.loop hph
  cases he.symm.trans he'
  obtain ⟨-, -, hop, -, -, -, -, hk, -⟩ := loopOf_frame e s
  have hengine := (congrArg engineOf hop).trans he
  have hmsb' := (congrArg BitVec.msb hk).trans hmsb
  obtain ⟨-, ⟨-, hloop, hok', -⟩ | ⟨-, hcommit, -, hres⟩⟩ := hok.loopOf hph hmsb
  · exact engineInv_of_loop hloop hengine hmsb' hok'
  · exact engineInv_of_commit hcommit hengine hmsb' hres

theorem EngineInv.engineTurn (h : EngineInv s) (hx : engineTurn s = .next t) : EngineInv t := by
  rcases engineTurn_cases s with ⟨-, ht⟩ | ⟨e, hph, he, ht⟩ | ⟨-, -, ht⟩ | ⟨-, ht⟩
  · cases ht.symm.trans hx
    exact h
  · cases ht.symm.trans hx
    exact h.loopOf hph he
  · cases ht.symm.trans hx
  · cases ht.symm.trans hx
    exact engineInv_of_idle rfl

end Kept

/-- Settles O31, by the cases of a step: a LOOP step and an acceptance have the arithmetic, the others keep the running
command or leave none. -/
theorem engineInvariantKeptByStep : Obligations.EngineInvariantKeptByStep := by
  intro s t h hx
  have htail (rest : List Move) : EngineInv { s with schedule := rest } :=
    h.kept (commandKept_refl s)
  rcases step_cases s with ⟨-, hs⟩ | ⟨rest, -, hs⟩ | ⟨rest, -, hs⟩ | ⟨x, rest, -, hs⟩
  · exact h.engineTurn (hs.symm.trans hx)
  · exact (htail rest).engineTurn (hs.symm.trans hx)
  · cases hs.symm.trans hx
    exact engineInv_of_idle rfl
  · exact (htail rest).hostAccess (hs.symm.trans hx)

end Sys2Proof.Machine
end

section
/-! The run of an engine command from acceptance to commit (spec 43_fib128.md R166 to R170, 44_fib256.md R195 to R199). -/

namespace Sys2Proof.Machine

/-! ### From acceptance to commit -/

/-- A turn that keeps a LOOP step's frame takes one step of the run. -/
theorem RunsTo.succ {r : Nat} {rd : Reg} {v : U256} {t t' : State} (hbusy : t.busy = true)
    (hturn : engineTurn t = .next t') (hframe : LoopFrame t t') (h : RunsTo r rd v t') : RunsTo (r + 1) rd v t := by
  obtain ⟨-, hw, -, -, -, -, -, -, -, hie, -, herr, hbwe, hcode, hsch, hresp⟩ := hframe
  obtain ⟨hbefore, u, hu, huw, huph, hudone, huie, huerr, hubwe, hucode, husch, huresp⟩ := h
  refine ⟨fun m hm => ?_, u, (engineRun_succ hturn _).trans hu, ?_, huph, hudone, huie.trans hie, huerr.trans herr,
    hubwe.trans hbwe, hucode.trans hcode, husch.trans hsch, huresp.trans hresp⟩
  · cases m with
    | zero => exact ⟨t, engineRun_zero t, hbusy, rfl⟩
    | succ m =>
      obtain ⟨x, hx, hxbusy, hxw⟩ := hbefore m (Nat.le_of_succ_le_succ hm)
      exact ⟨x, (engineRun_succ hturn m).trans hx, hxbusy, hxw.trans hw⟩
  · rw [huw, writeW_w, writeW_w, hw]

/-- A command running on the invariant takes its remaining LOOP steps and commits B of the pair they lead to, which is
the command's result. -/
theorem LoopOk.runsTo {e : Engine} {r : Nat} {t : State} (hph : t.ph = .loop) (he : engineOf t.op = some e)
    (hmsb : t.k.msb = false) (h : LoopOk e t) (hr : e.remaining t = r) :
    RunsTo r t.rd (e.finalPair t.n r (t.a, t.b)).2 t ∧
      ResultOk e t.k.toNat (e.finalPair t.n r (t.a, t.b)).2 := by
  induction r generalizing t with
  | zero => obtain ⟨-, ⟨hle, -⟩ | ⟨heq, -⟩⟩ := h.loopOf hph hmsb <;> omega
  | succ r ih =>
    have hframe := loopOf_frame e t
    have hturn {v : U256} (hrun : RunsTo r t.rd v (Machine.loopOf e t)) : RunsTo (r + 1) t.rd v t :=
      hrun.succ (by simp [State.busy, hph]) (engineTurn_loop hph he) hframe
    obtain ⟨-, -, hop, hrd, -, -, -, hk, hn, -⟩ := hframe
    obtain ⟨hpair, hnext⟩ := h.loopOf hph hmsb
    rw [hr, Nat.add_sub_cancel] at hpair
    rw [Engine.finalPair, ← hpair, ← hn, ← hk]
    rcases hnext with ⟨-, hloop, hok, hremaining⟩ | ⟨hone, hcommit, hres, hresult⟩
    · obtain ⟨hrun, hresult⟩ := ih hloop (hop ▸ he) (hk ▸ hmsb) hok (by omega)
      exact ⟨hturn (hrd ▸ hrun), hresult⟩
    · obtain rfl : r = 0 := by omega
      rw [hres] at hresult
      refine ⟨hturn ?_, hresult⟩
      rw [← hrd, Engine.finalPair, ← hres]
      exact runsTo_zero_of_commit hcommit

/-- An engine command with an index that is not negative is accepted and commits its engine's value of that index, which
is its result, after R260's LOOP steps. -/
theorem exec_command_runsTo (e : Engine) {s : State} {rd rs1 : Reg} {k : BitVec 64} (hk : k = s.index rs1)
    (hnonneg : 0 ≤ k.toInt) :
    ∃ t, exec (e.command rd rs1) s = .next t ∧ AcceptedFrom s t ∧ RunsTo (e.steps k.toNat) rd (e.value k) t ∧
      ResultOk e k.toNat (e.value k) := by
  have hmsb := msb_eq_false_of_nonneg hnonneg
  obtain ⟨t, ht, ⟨hop, hrd, -, -, -, -, haccepted⟩, htk⟩ :=
    acceptEngine_latched e.opcode rd rs1 e (s := s) (by rw [indexNegative, ← hk, hmsb])
  refine ⟨t, (exec_command e rd rs1 s).trans ht, haccepted, ?_⟩
  have hstart : StartOk e (s.acceptedEngine e.opcode rd rs1) t := by
    cases ht.symm.trans (acceptEngine_of_msb_eq_false (by rw [← hk, hmsb]) e.opcode rd e.start)
    exact e.start_startOk (by rw [← hmsb, hk]; rfl)
  have hindex : (s.acceptedEngine e.opcode rd rs1).k = k := hk.symm
  rw [← hrd]
  rw [StartOk, hindex] at hstart
  rcases hstart with ⟨hsteps, hcommit, hres, hresult⟩ | ⟨hsteps, hloop, hok, hvalue⟩
  · rw [hsteps, ← hres]
    exact ⟨runsTo_zero_of_commit hcommit, hresult⟩
  · rw [← hsteps, ← hvalue]
    have hrun := hok.runsTo hloop (hop ▸ engineOf_opcode e) (by rw [htk, ← hk, hmsb]) rfl
    rwa [htk, ← hk] at hrun

/-- Settles O45: 128-bit results are whole, so the committed value is F(K) mod 2^128. -/
theorem engines128GiveFibonacci : Obligations.Engines128GiveFibonacci := by
  intro s rd rs1 k _ hnonneg hk
  subst hk
  have hrun (e : Engine) := exec_command_runsTo e (rd := rd) (rs1 := rs1) (s := s) rfl hnonneg
  obtain ⟨t₁, ht₁, ha₁, hr₁, hv₁⟩ := hrun .fibs128
  obtain ⟨t₂, ht₂, ha₂, hr₂, hv₂⟩ := hrun .fibd128
  obtain ⟨t₃, ht₃, ha₃, hr₃, hv₃⟩ := hrun .fibc128
  exact ⟨⟨t₁, ht₁, ha₁, hv₁ ▸ hr₁⟩, ⟨t₂, ht₂, ha₂, hv₂ ▸ hr₂⟩, ⟨t₃, ht₃, ha₃, hv₃ ▸ hr₃⟩⟩

/-- Settles O50. -/
theorem engineResultDependsOnIndexOnly : Obligations.EngineResultDependsOnIndexOnly := by
  intro mk hmk s s' rd rs1 rd' rs1' _ _ hk hnonneg
  obtain ⟨e, rfl⟩ : ∃ e : Engine, mk = e.command := by
    simp only [List.mem_cons, List.not_mem_nil, or_false] at hmk
    rcases hmk with rfl | rfl | rfl | rfl | rfl | rfl
    · exact ⟨.fibs128, rfl⟩
    · exact ⟨.fibd128, rfl⟩
    · exact ⟨.fibc128, rfl⟩
    · exact ⟨.fibi256, rfl⟩
    · exact ⟨.fibc256, rfl⟩
    · exact ⟨.fibc256w, rfl⟩
  obtain ⟨t, ht, haccepted, hrun, -⟩ := exec_command_runsTo e (rd := rd) (rs1 := rs1) (s := s) rfl hnonneg
  obtain ⟨t', ht', haccepted', hrun', -⟩ := exec_command_runsTo e (rd := rd') (rs1 := rs1') (s := s') hk hnonneg
  exact ⟨_, _, t, t', ht, ht', haccepted, haccepted', hrun, hrun'⟩

/-! ### The source's recursion (R166, R167) -/

/-- The recursion computes the pair for n, from the pair for n / 2, when it is deep enough for n. -/
theorem drec_eq_fibLimb {depth : Nat} {n : BitVec 64} (hpos : 1 ≤ n.toNat) (hdepth : n.toNat < 2 ^ depth) :
    drec depth n = (fibLimb n.toNat, fibLimb (n.toNat + 1)) := by
  induction depth generalizing n with
  | zero => omega
  | succ d ih =>
    rw [drec]
    split
    · next hlt =>
      have hone : n.toNat = 1 := by omega
      rw [hone]
      rfl
    · next hge =>
      have hhalf : (n >>> 1).toNat = n.toNat / 2 := by rw [BitVec.toNat_ushiftRight, Nat.shiftRight_one]
      have hbit : 2 * (n.toNat / 2) + (n.getLsbD 0).toNat = n.toNat := by
        rw [← BitVec.testBit_toNat, Nat.toNat_testBit]
        omega
      have hstep := (doublingStepAdvancesThePair (n.toNat / 2) (n.getLsbD 0)).1
      rw [hbit] at hstep
      rw [ih (n := n >>> 1) (by omega) (by rw [hhalf]; omega), hhalf]
      exact hstep

/-- What O49 says FIBD128 commits is F(K) mod 2^128. -/
theorem drec_result_eq_fib128 {k : BitVec 64} (hmsb : k.msb = false) :
    (if k.toNat < 2 then k.setWidth 256 else (drec 64 (k - 1)).2.setWidth 256) = fib128 k.toNat := by
  split
  · next hlt => exact resultOk_index .fibd128 hlt
  · next hge =>
    have hlt := toNat_lt_of_msb_eq_false hmsb
    have hn : (k - 1).toNat = k.toNat - 1 := toNat_index_pred (by omega)
    rw [drec_eq_fibLimb (by omega) (by omega), hn, Nat.sub_add_cancel (by omega), fib128_eq_setWidth]

/-- Settles O49. -/
theorem fibd128EqualsTheRecursion : Obligations.Fibd128EqualsTheRecursion := by
  intro s rd rs1 k _ hk hnonneg
  obtain ⟨t, ht, haccepted, hrun, hvalue⟩ := exec_command_runsTo .fibd128 (rd := rd) hk hnonneg
  refine ⟨t, ht, haccepted, ?_⟩
  have hfib : Engine.fibd128.value k = fib128 k.toNat := hvalue
  rw [drec_result_eq_fib128 (msb_eq_false_of_nonneg hnonneg), ← hfib]
  exact hrun

/-! ### The exact domains (R169, R195 to R197; 70_reset_and_hazards.md R259) -/

/-- The largest index whose Fibonacci number an engine's result can hold. -/
def Engine.exactUpTo : Engine → Nat
  | .fibs128 | .fibd128 | .fibc128 => 186
  | .fibi256 | .fibc256 | .fibc256w => 370

theorem toNat_fib128_eq_iff (k : Nat) : (fib128 k).toNat = Nat.fib k ↔ k ≤ 186 := by
  rw [← fib_lt_limb_iff, fib128_eq_setWidth, BitVec.toNat_setWidth_of_le (by decide), fibLimb, BitVec.toNat_ofNat,
    Nat.mod_eq_iff_lt (by decide)]

theorem toNat_fib256_eq_iff (k : Nat) : (fib256 k).toNat = Nat.fib k ↔ k ≤ 370 := by
  rw [← fib_lt_u256_iff, fib256, BitVec.toNat_ofNat, Nat.mod_eq_iff_lt (by decide)]

/-- A result is the Fibonacci number itself exactly where that number fits the engine's width. -/
theorem ResultOk.toNat_eq_fib_iff {e : Engine} {k : Nat} {v : U256} (h : ResultOk e k v) :
    v.toNat = Nat.fib k ↔ k ≤ e.exactUpTo := by
  cases e with
  | fibs128 | fibd128 | fibc128 =>
    cases h
    exact toNat_fib128_eq_iff k
  | fibi256 | fibc256w =>
    cases h
    exact toNat_fib256_eq_iff k
  | fibc256 =>
    obtain ⟨-, hwhole⟩ := h
    refine ⟨fun heq => (fib_lt_u256_iff k).1 (heq ▸ v.isLt), fun hk => ?_⟩
    rw [hwhole (Nat.le_succ_of_le hk)]
    exact (toNat_fib256_eq_iff k).2 hk

/-- A run ends with its value in the destination. -/
theorem RunsTo.readW {r : Nat} {rd : Reg} {v : U256} {t : State} (h : RunsTo r rd v t) :
    ∃ u, engineRun (r + 1) t = .next u ∧ u.ph = .idle ∧ u.readW rd = v := by
  obtain ⟨-, u, hu, hw, hph, -⟩ := h
  exact ⟨u, hu, hph, (readW_congr u _ hw rd).trans (readW_writeW_same t rd v)⟩

/-- Settles O48. -/
theorem exactDomainsOfTheEngines : Obligations.ExactDomainsOfTheEngines := by
  intro s rd rs1 k _ hnonneg hk p hp
  subst hk
  obtain ⟨e, rfl⟩ : ∃ e : Engine, p = (e.command rd rs1, e.steps (s.index rs1).toNat, e.exactUpTo) := by
    simp only [List.mem_cons, List.not_mem_nil, or_false] at hp
    rcases hp with rfl | rfl | rfl | rfl | rfl | rfl
    · exact ⟨.fibs128, rfl⟩
    · exact ⟨.fibd128, rfl⟩
    · exact ⟨.fibc128, rfl⟩
    · exact ⟨.fibi256, rfl⟩
    · exact ⟨.fibc256, rfl⟩
    · exact ⟨.fibc256w, rfl⟩
  obtain ⟨t, ht, haccepted, hrun, hresult⟩ := exec_command_runsTo e (rd := rd) (rs1 := rs1) (s := s) rfl hnonneg
  obtain ⟨u, hu, hph, hread⟩ := hrun.readW
  exact ⟨t, u, ht, haccepted, hu, hph, hread ▸ hresult.toNat_eq_fib_iff⟩

end Sys2Proof.Machine
end

section
/-! The 256-bit engine commands (spec 44_fib256.md R193 to R198): what FIBI256 and FIBC256W commit, and where FIBC256's
products of low limbs are enough. -/

namespace Sys2Proof.Machine

/-- Settles O46: full-width results are whole, so the committed value is F(K) mod 2^256. -/
theorem fullWidthEnginesGiveFibonacci : Obligations.FullWidthEnginesGiveFibonacci := by
  intro s rd rs1 k _ hnonneg hk
  subst hk
  have hrun (e : Engine) := exec_command_runsTo e (rd := rd) (rs1 := rs1) (s := s) rfl hnonneg
  obtain ⟨t₁, ht₁, ha₁, hr₁, hv₁⟩ := hrun .fibi256
  obtain ⟨t₂, ht₂, ha₂, hr₂, hv₂⟩ := hrun .fibc256w
  exact ⟨⟨t₁, ht₁, ha₁, hv₁ ▸ hr₁⟩, ⟨t₂, ht₂, ha₂, hv₂ ▸ hr₂⟩⟩

/-! ### What a product of low limbs loses (R191, R196) -/

/-- The product that the low-limb step takes instead of `x * y`. -/
def lowProduct (x y : Nat) : Nat := x % 2 ^ 128 * (y % 2 ^ 128)

/-- What `lowProduct` lacks of `x * y`, in units of 2^128. -/
def lostProduct (x y : Nat) : Nat :=
  x / 2 ^ 128 * (y / 2 ^ 128) * 2 ^ 128 + (y % 2 ^ 128 * (x / 2 ^ 128) + x % 2 ^ 128 * (y / 2 ^ 128))

theorem mul_eq_low_add_lost (x y : Nat) : x * y = lowProduct x y + lostProduct x y * 2 ^ 128 := by
  rw [mul_eq_parts (2 ^ 128), lowProduct, lostProduct]
  ring

/-- B after a doubling step on (a, b), as R191 makes it of a product: c = a t and d = a a + b b, where t = 2b - a. -/
def doublingSum (product : Nat → Nat → Nat) (a b : Nat) (bit : Bool) : Nat :=
  let d := product a a + product b b
  if bit then product a (2 * b - a) + d else d

theorem doublingSum_mul_eq (a b : Nat) (bit : Bool) :
    doublingSum (· * ·) a b bit = doublingSum lowProduct a b bit + doublingSum lostProduct a b bit * 2 ^ 128 := by
  simp only [doublingSum, mul_eq_low_add_lost a, mul_eq_low_add_lost b b]
  cases bit with
  | false => simp only [Bool.false_eq_true, if_false]; ring
  | true => simp only [if_true]; ring

/-- The doubling identities on the numbers themselves (43_fib128.md R162). -/
theorem fib_eq_doublingSum (m : Nat) (bit : Bool) :
    Nat.fib (2 * m + bit.toNat + 1) = doublingSum (· * ·) (Nat.fib m) (Nat.fib (m + 1)) bit := by
  have hodd : Nat.fib (2 * m + 1) = Nat.fib m * Nat.fib m + Nat.fib (m + 1) * Nat.fib (m + 1) := by
    rw [Nat.fib_two_mul_add_one]
    ring
  cases bit with
  | false => exact hodd
  | true => exact Nat.fib_add_two.trans (congrArg₂ (· + ·) (Nat.fib_two_mul m) hodd)

theorem setWidth_mul_ofNat_limb (x y : Nat) :
    (BitVec.ofNat 128 x).setWidth 256 * (BitVec.ofNat 128 y).setWidth 256 = BitVec.ofNat 256 (lowProduct x y) := by
  have hwide (z : Nat) : (BitVec.ofNat 128 z).setWidth 256 = BitVec.ofNat 256 (z % 2 ^ 128) := by
    rw [← setWidth_ofNat_limb (Nat.mod_lt z (by decide)), ← BitVec.toNat_ofNat, BitVec.ofNat_toNat, BitVec.setWidth_eq]
  rw [hwide, hwide, lowProduct, BitVec.ofNat_mul]

/-- B after R191's low-limb step: the step reads nothing but the low limbs of the pair, which are right for every m. -/
theorem dstep256Lo_snd {m : Nat} {a b : U256} (ha : lo a = fibLimb m) (hb : lo b = fibLimb (m + 1)) (bit : Bool) :
    (dstep256Lo a b bit).2 = BitVec.ofNat 256 (doublingSum lowProduct (Nat.fib m) (Nat.fib (m + 1)) bit) := by
  have ht : lo (b + b - a) = BitVec.ofNat 128 (2 * Nat.fib (m + 1) - Nat.fib m) := by
    rw [lo_sub, lo_add, ha, hb]
    exact fibWord_lucas 128 m
  rw [dstep256Lo_eq, ht, ha, hb, fibLimb, fibLimb]
  simp only [setWidth_mul_ofNat_limb, ← BitVec.ofNat_add, doublingPair, doublingSum]
  cases bit <;> rfl

/-- The low products give the right B exactly when what they lack has no weight mod 2^256 (R196). -/
theorem lowProducts_eq_fib256_iff (m : Nat) (bit : Bool) :
    BitVec.ofNat 256 (doublingSum lowProduct (Nat.fib m) (Nat.fib (m + 1)) bit) = fib256 (2 * m + bit.toNat + 1) ↔
      doublingSum lostProduct (Nat.fib m) (Nat.fib (m + 1)) bit % 2 ^ 128 = 0 := by
  rw [fib256, fib_eq_doublingSum, doublingSum_mul_eq, BitVec.toNat_inj.symm, BitVec.toNat_ofNat, BitVec.toNat_ofNat]
  omega

/-! ### FIBC256's last LOOP step (R193) -/

/-- From a pair whose low limbs are right, FIBC256 ends with B of one low-limb step on the pair for N without its last
bit. -/
theorem finalPair_fibc256 (n : BitVec 64) (r : Nat) {a b : U256} (ha : lo a = fibLimb (n.toNat >>> (r + 1)))
    (hb : lo b = fibLimb (n.toNat >>> (r + 1) + 1)) :
    (Engine.finalPair .fibc256 n (r + 1) (a, b)).2 = BitVec.ofNat 256
      (doublingSum lowProduct (Nat.fib (n.toNat >>> 1)) (Nat.fib (n.toNat >>> 1 + 1)) (n.getLsbD 0)) := by
  induction r generalizing a b with
  | zero => exact dstep256Lo_snd ha hb (n.getLsbD 0)
  | succ r ih =>
    obtain ⟨ha', hb', -⟩ := pairOk_dstep256Lo ha hb (n.getLsbD (r + 1))
    have hprefix := shiftRight_pred_eq n (Nat.le_add_left 1 (r + 1))
    rw [Nat.add_sub_cancel] at hprefix
    rw [← hprefix] at ha' hb'
    exact ih ha' hb'

/-- FIBC256's value for K is F(K) mod 2^256 exactly when its last step, on the pair for m and the last bit of K - 1,
loses nothing. -/
theorem value_fibc256_eq_fib256_iff {k : BitVec 64} {m : Nat} {bit : Bool} (hm : 1 ≤ m)
    (hk : k.toNat = 2 * m + bit.toNat + 1) :
    Engine.value .fibc256 k = fib256 k.toNat ↔
      doublingSum lostProduct (Nat.fib m) (Nat.fib (m + 1)) bit % 2 ^ 128 = 0 := by
  have hn : (k - 1).toNat = 2 * m + bit.toNat := by rw [toNat_index_pred (by omega)]; omega
  have hbit : (k - 1).getLsbD 0 = bit := by
    rw [← BitVec.testBit_toNat, hn]
    cases bit <;> simp
  have hhalf : (k - 1).toNat >>> 1 = m := by
    have := bit.toNat_lt
    rw [hn, Nat.shiftRight_one]
    omega
  obtain ⟨r, hr⟩ := Nat.exists_eq_add_of_le' (one_le_log2 (n := (k - 1).toNat) (by omega))
  have hfirst : (k - 1).toNat >>> (r + 1) = 1 := by rw [← hr, shiftRight_log2 (by omega)]
  have hlast := finalPair_fibc256 (k - 1) r (a := 1) (b := 1) (by rw [hfirst]; rfl) (by rw [hfirst]; rfl)
  rw [hhalf, hbit] at hlast
  rw [Engine.value_doubling rfl (by omega), ← toNat_index_pred (by omega), hr, hlast, hk]
  exact lowProducts_eq_fib256_iff m bit

/-! ### The last steps that lose something (R196) -/

/-- Whether the steps on the next `n` pairs of the Fibonacci sequence, from (a, b) on, all lose something, whatever the
bit. -/
def stepsLose : Nat → Nat → Nat → Bool
  | 0, _, _ => true
  | n + 1, a, b => decide (∀ bit, doublingSum lostProduct a b bit % 2 ^ 128 ≠ 0) && stepsLose n b (a + b)

theorem lost_ne_zero_of_stepsLose {n m : Nat} (h : stepsLose n (Nat.fib m) (Nat.fib (m + 1)) = true) {i : Nat}
    (hi : i < n) (bit : Bool) :
    doublingSum lostProduct (Nat.fib (m + i)) (Nat.fib (m + i + 1)) bit % 2 ^ 128 ≠ 0 := by
  induction n generalizing m i with
  | zero => omega
  | succ n ih =>
    rw [stepsLose, ← Nat.fib_add_two, Bool.and_eq_true, decide_eq_true_iff] at h
    obtain ⟨hhead, htail⟩ := h
    cases i with
    | zero => exact hhead bit
    | succ i =>
      rw [← Nat.succ_add_eq_add_succ]
      exact ih htail (Nat.lt_of_succ_lt_succ hi)

/-- The evaluation that R196 rests on. K = 372 is bit 1 on m = 185, where bit 0, for K = 371, loses nothing; the indexes
from 373 to 1199 are both bits on m from 186 to 599. -/
theorem lost_ne_zero {m : Nat} {bit : Bool} (hle : 372 ≤ 2 * m + bit.toNat + 1) (hge : 2 * m + bit.toNat + 1 ≤ 1199) :
    doublingSum lostProduct (Nat.fib m) (Nat.fib (m + 1)) bit % 2 ^ 128 ≠ 0 := by
  have hfirst : doublingSum lostProduct (Nat.fib 185) (Nat.fib 186) true % 2 ^ 128 ≠ 0 := by decide +kernel
  have hrest : stepsLose 414 (Nat.fib 186) (Nat.fib 187) = true := by decide +kernel
  have hbit := bit.toNat_lt
  rcases Nat.lt_or_ge m 186 with hlt | hm
  · obtain rfl : m = 185 := by omega
    cases bit with
    | false => simp at hle
    | true => exact hfirst
  · obtain ⟨i, rfl⟩ := Nat.exists_eq_add_of_le hm
    exact lost_ne_zero_of_stepsLose hrest (by omega) bit

theorem value_fibc256_ne_fib256 {k : BitVec 64} (hle : 372 ≤ k.toNat) (hge : k.toNat ≤ 1199) :
    Engine.value .fibc256 k ≠ fib256 k.toNat := by
  have hk : k.toNat = 2 * ((k.toNat - 1) / 2) + (Nat.bodd (k.toNat - 1)).toNat + 1 := by
    have := Nat.bodd_add_div2 (k.toNat - 1)
    rw [Nat.div2_val] at this
    omega
  rw [Ne, value_fibc256_eq_fib256_iff (by omega) hk]
  exact lost_ne_zero (by omega) (by omega)

/-- Settles O47. -/
theorem lowLimbEngineDomain : Obligations.LowLimbEngineDomain := by
  intro s rd rs1 k _ hnonneg hk
  subst hk
  obtain ⟨t, ht, haccepted, hrun, hlow, hwhole⟩ :=
    exec_command_runsTo .fibc256 (rd := rd) (rs1 := rs1) (s := s) rfl hnonneg
  exact ⟨t, _, ht, haccepted, hrun, hlow, hwhole, value_fibc256_ne_fib256⟩

end Sys2Proof.Machine
end

section
/-! The exceptions family (spec 60_exceptions.md): what a rejection writes, which index an engine command refuses, and
what drives the interrupt output. -/

namespace Sys2Proof.Machine

/-! ### Rejections (R221 to R223) -/

/-- ERRCODE.CODE's number for each cause (R222). -/
theorem code_eq_rejectBits {p : RejectCode × BitVec 4}
    (h : p ∈ [(RejectCode.illegalOpcode, 1#4), (.reservedField, 2#4), (.negIndex, 3#4)]) : p.2 = rejectBits p.1 := by
  simp only [List.mem_cons, List.not_mem_nil, or_false] at h
  rcases h with rfl | rfl | rfl <;> rfl

theorem busy_eq_false_of_idle {s : State} (h : s.ph = .idle) : s.busy = false := by simp [State.busy, h]

/-- A rejection raises ERR, so that irq is IE (R228). -/
theorem irq_reject (s : State) (c : RejectCode) : (s.reject c).irq = s.ie := by simp [State.irq]

/-- Settles O7. -/
theorem commandRejectionIsPrecise : Obligations.CommandRejectionIsPrecise := by
  intro s v rest h hph p hp hc
  refine ⟨(s.served rest .written).reject p.1, step_rejected h hph hc, ?_, ?_, ?_⟩
  · rw [code_eq_rejectBits hp]
    rfl
  · exact busy_eq_false_of_idle hph
  · exact irq_reject (s.served rest .written) p.1

/-- An engine command with a negative index is rejected, whichever engine it names (R223). -/
theorem exec_command_of_neg (e : Engine) (rd : Reg) {rs1 : Reg} {s : State} (h : (s.index rs1).toInt < 0) :
    exec (e.command rd rs1) s = .next (s.reject .negIndex) := by
  rw [exec_command]
  exact if_pos ((indexNegative_iff (s.index rs1)).1 h)

/-- R12's six engine commands are the commands of the six engines. -/
theorem eq_command_of_mem {i : Instr} {rd rs1 : Reg}
    (h : i ∈ [Instr.fibs128 rd rs1, .fibd128 rd rs1, .fibc128 rd rs1, .fibi256 rd rs1, .fibc256 rd rs1,
      .fibc256w rd rs1]) : ∃ e : Engine, i = e.command rd rs1 := by
  simp only [List.mem_cons, List.not_mem_nil, or_false] at h
  rcases h with rfl | rfl | rfl | rfl | rfl | rfl
  · exact ⟨.fibs128, rfl⟩
  · exact ⟨.fibd128, rfl⟩
  · exact ⟨.fibc128, rfl⟩
  · exact ⟨.fibi256, rfl⟩
  · exact ⟨.fibc256, rfl⟩
  · exact ⟨.fibc256w, rfl⟩

/-- Settles O44. -/
theorem negativeIndexIsRejected : Obligations.NegativeIndexIsRejected := by
  intro s rd rs1 _ hneg i hi
  obtain ⟨e, rfl⟩ := eq_command_of_mem hi
  exact exec_command_of_neg e rd hneg

/-! ### The interrupt output (R228, 10_state.md R39) -/

/-- A commit sets DONE, so that irq is IE. -/
theorem irq_commitStep (s : State) : s.commitStep.irq = s.ie := by simp [State.irq, State.commitStep]

theorem irq_of_accepted {s t : State} (h : AcceptedFrom s t) : t.irq = (s.ie && s.err) := by
  obtain ⟨hdone, -, hie, herr, -⟩ := h
  simp [State.irq, hdone, hie, herr]

theorem irq_writeStatus (s : State) (v : Word) :
    (s.writeStatus v).irq = (s.ie && ((s.done && !v.getLsbD 1) || (s.err && !v.getLsbD 2))) := rfl

/-- Writing 1 to DONE and to ERR lowers irq, whatever they were. -/
theorem irq_writeStatus_six (s : State) : (s.writeStatus 6).irq = false := by
  rw [irq_writeStatus, show (6 : Word).getLsbD 1 = true by decide, show (6 : Word).getLsbD 2 = true by decide]
  simp

/-- A CTRL write, as the next move (R35). -/
theorem step_ctrlWrite {s : State} {v : Word} {rest : List Move} (h : s.schedule = hostWrite32 0x004 v :: rest) :
    step s = .next ((s.served rest .written).writeCtrl v) :=
  step_hostWrite32 s 0x004 v rest h (by decide) (by decide)

/-- A STATUS write, as the next move (R36). -/
theorem step_statusWrite {s : State} {v : Word} {rest : List Move} (h : s.schedule = hostWrite32 0x008 v :: rest) :
    step s = .next ((s.served rest .written).writeStatus v) :=
  step_hostWrite32 s 0x008 v rest h (by decide) (by decide)

/-- Settles O22, one kind of move at a time. -/
theorem interruptLineFollowsStatus : Obligations.InterruptLineFollowsStatus := by
  refine ⟨fun s rest h hph => ?commit, fun s v rest h => ?ctrl, fun s v rest h hph => ⟨fun hc => ?rejected,
    fun hc => ?accepted⟩, fun s v rest h => ?status, fun s rest h => ?acknowledged⟩
  case commit =>
    exact ⟨_, (step_engine h).trans (engineTurn_commit hph), irq_commitStep { s with schedule := rest }⟩
  case ctrl => exact ⟨_, step_ctrlWrite h, rfl, rfl, rfl⟩
  case rejected =>
    obtain ⟨c, hc⟩ := Option.ne_none_iff_exists'.1 hc
    exact ⟨_, step_rejected h hph hc, irq_reject (s.served rest .written) c⟩
  case accepted =>
    obtain ⟨t, ht, ⟨-, -, -, -, -, -, haccepted⟩, -⟩ := step_accepted h hph hc
    exact ⟨t, ht, haccepted.1, irq_of_accepted (s := s.served rest .written) haccepted⟩
  case status => exact ⟨_, step_statusWrite h, irq_writeStatus (s.served rest .written) v⟩
  case acknowledged => exact ⟨_, step_statusWrite h, irq_writeStatus_six (s.served rest .written)⟩

end Sys2Proof.Machine
end

section
/-! The reset family (spec 70_reset_and_hazards.md): the values reset gives every piece of host-visible state, from any
state of the machine. -/

namespace Sys2Proof.Machine

/-- With IE at 0 the interrupt output is low, whatever STATUS holds (10_state.md R39, 70_reset_and_hazards.md R251). -/
theorem irq_of_ie_eq_false {s : State} (h : s.ie = false) : s.irq = false := by rw [State.irq, h, Bool.false_and]

/-- STATUS reads 0 from an IDLE engine with DONE, ERR and BWE clear (10_state.md R36). -/
theorem statusWord_of_clear {s : State} (hph : s.ph = .idle) (hdone : s.done = false) (herr : s.err = false)
    (hbwe : s.bwe = false) : s.statusWord = 0 := by
  rw [statusWord_eq_weights, busy_eq_false_of_idle hph, hdone, herr, hbwe]
  rfl

/-- Settles O26. -/
theorem resetLeavesSpecifiedValues : Obligations.ResetLeavesSpecifiedValues := by
  obtain ⟨hid, -⟩ := windowReadsRegisters State.reset
  have hstatus : State.reset.hostRead 0x008 = 0 := statusWord_of_clear rfl rfl rfl rfl
  have hirq : State.reset.irq = false := irq_of_ie_eq_false rfl
  exact ⟨readW_reset, rfl, rfl, rfl, rfl, rfl, rfl, hid, hstatus, hirq⟩

/-- A reset, as the next move, whatever the engine is doing (R250). -/
theorem step_reset {s : State} {rest : List Move} (h : s.schedule = .reset :: rest) :
    step s = .next { s with schedule := rest }.hardwareReset := by simp [step, nextMove, h, takeMove]

theorem readW_hardwareReset (s : State) (r : Reg) : s.hardwareReset.readW r = 0 :=
  (readW_congr s.hardwareReset State.reset (hardwareReset_w s) r).trans (readW_reset r)

/-- Settles O27: the move is a hardware reset, whose every field but the schedule is the reset state's. -/
theorem resetAbandonsTheCommand : Obligations.ResetAbandonsTheCommand := by
  intro s rest h
  have hirq : { s with schedule := rest }.hardwareReset.irq = false := irq_of_ie_eq_false rfl
  exact ⟨_, step_reset h, readW_hardwareReset _, rfl, rfl, rfl, rfl, rfl, rfl, hirq, rfl⟩

end Sys2Proof.Machine
end
